-- ==== Sys2Proof/Word.lean ====
section
/-! DEFINITION. The words of the Kotan 9 package: the widths the manual writes everything in, and their
plainest arithmetic. Byte order is little-endian everywhere (Scope, Notation). -/

namespace Sys2Proof

/-- A control-space register, a scalar register, a wire doubleword: 64 bits (R4, Table 3.2). -/
abbrev Word := BitVec 64

/-- A byte of memory. -/
abbrev Byte := BitVec 8

/-- A row of a tile: 64 bytes, little-endian (R46). -/
abbrev Row := BitVec 512

/-- The 64 rows of a tile as one little-endian number; row r is bits [512r+511 : 512r]. -/
abbrev TileData := BitVec 32768

/-- A vector register: 512 bytes (Table 3.2). -/
abbrev VReg := BitVec 4096

end Sys2Proof
end

