-- ==== Sys2Proof/Operand.lean ====
section
/-! DEFINITION. The operand types of the commands: addresses of units, the fields of the Fenyo slot layouts
(Fenyo instruction set, Tables 4.4 to 4.18), tiles with their records, fabric packets, and what a command that
reports a physical event carries with it. Everything here is plain data. -/

namespace Sys2Proof

/-! ## Names of units -/

/-- A logical core `p.c.k` (Table 1.2). The type admits only addresses that name a core (R16). -/
structure CoreAddr where
  p : Fin 4
  c : Fin 12
  k : Fin 8
deriving DecidableEq, Repr

/-- An application core `p.a` (Package organization, Naming the compute hierarchy). -/
structure AppCore where
  p : Fin 4
  a : Fin 8
deriving DecidableEq, Repr

/-- Who makes an access to control space (R5, R39, R392, R416, R443, R477, R478). -/
inductive RegSource where
  /-- PF BAR0 of a PCIe port -/
  | pf (port : Fin 2)
  /-- the tray controller, over I3C -/
  | i3c
  /-- a MGMT request of the fabric manager (R281) -/
  | fabricMgr
  /-- a management core -/
  | mgmtCore
  /-- the control-complex runtime on the application cores (R379, R383) -/
  | runtime
deriving DecidableEq, Repr

/-- Where a doorbell comes from (R364). -/
inductive DoorSource where
  /-- VF BAR0 of a port, for context n -/
  | vf (port : Fin 2) (ctx : Fin 16)
  /-- CTL_RING_DB_r through PF BAR0 of a port -/
  | pf (port : Fin 2)
  /-- KT.DBELL of an application core -/
  | control
  /-- a management core's write of CTL_RING_DB_r -/
  | mgmtCore
deriving DecidableEq, Repr

/-- A PCIe function (R357). -/
inductive PcieFn where
  | pf
  | vf (n : Fin 16)
deriving DecidableEq, Repr

/-- Privilege modes of an application core (R383, R384); U-mode is that of code outside a guest. -/
inductive Priv where
  | m | hs | u | vs | vu
deriving DecidableEq, Repr

/-- A reset domain (Table 13.1). -/
inductive Domain where
  | context (n : Fin 16)
  | core (c : CoreAddr)
  | cluster (p : Fin 4) (c : Fin 12)
  /-- an engine of a partition: 0 memory controller, 1 table walker, 2 HBM controller -/
  | partEngine (p : Fin 4) (unit : Nat)
  /-- an engine of an I/O die: 0 Collective Engine, 1 PCIe, 2 Ethernet -/
  | dieEngine (die : Fin 2) (unit : Nat)
  | partition (p : Fin 4)
  | package
deriving DecidableEq, Repr

/-! ## Tiles and records -/

/-- A Tile Check Record (Table 6.3) without its address term. Row code r is bits [14r+13 : 14r] of `code`. -/
structure TileRec where
  code : BitVec 896
  sum : BitVec 32
  gen : BitVec 32
  fmt : BitVec 8
  flags : BitVec 8
  owner : BitVec 24
  anchor : BitVec 16
deriving DecidableEq, Repr

/-- A tile with the record that travels with it. -/
structure TileImg where
  data : TileData
  tcr : TileRec
deriving DecidableEq, Repr

/-! ## Slot fields (Tables 4.7, 4.10, 4.13, 4.15, 4.17). `pred` is PRED of Table 4.4. -/

structure FTM where
  pred : BitVec 3
  kd : BitVec 3
  ta : BitVec 4
  tb : BitVec 4
  ma : Bool
  mb : Bool
  fa : BitVec 3
  fb : BitVec 3
  scl : BitVec 7
  half : Bool
deriving DecidableEq, Repr

structure FTF where
  pred : BitVec 3
  kd : BitVec 3
  ta : BitVec 4
  tb : BitVec 4
  ma : Bool
  mb : Bool
  fp : Bool
deriving DecidableEq, Repr

structure FTR where
  pred : BitVec 3
  ks : BitVec 3
  ml : Bool
  dst : BitVec 4
  fmt : BitVec 4
  rm : BitVec 2
  q : BitVec 5
  sx : BitVec 5
  strip : BitVec 7
deriving DecidableEq, Repr

structure FTK where
  pred : BitVec 3
  kd : BitVec 3
  ml : Bool
  src : BitVec 4
deriving DecidableEq, Repr

structure FVR where
  pred : BitVec 3
  vd : BitVec 6
  va : BitVec 6
  vb : BitVec 6
  vc : BitVec 6
  ty : BitVec 2
  rm : BitVec 2
deriving DecidableEq, Repr

structure FVX where
  pred : BitVec 3
  vd : BitVec 6
  va : BitVec 6
  fmt : BitVec 4
  rm : BitVec 3
  vs : BitVec 5
  sx : BitVec 5
  part : BitVec 2
deriving DecidableEq, Repr

structure FVN where
  pred : BitVec 3
  va : BitVec 6
  nr : BitVec 3
  sm : Bool
deriving DecidableEq, Repr

structure FVQ where
  pred : BitVec 3
  rs : BitVec 5
  sm : Bool
deriving DecidableEq, Repr

/-- Layouts of the L slots carry the port (`l1 = true` is the L1 slot): every opcode of Table 4.14 is valid in both. -/
structure FLM where
  pred : BitVec 3
  l1 : Bool
  rd : BitVec 6
  rb : BitVec 5
  row : BitVec 3
  imm : BitVec 16
deriving DecidableEq, Repr

structure FLR where
  pred : BitVec 3
  l1 : Bool
  rd : BitVec 5
  ra : BitVec 5
  rb : BitVec 5
deriving DecidableEq, Repr

structure FLI where
  pred : BitVec 3
  l1 : Bool
  rd : BitVec 5
  ra : BitVec 5
  imm : BitVec 16
deriving DecidableEq, Repr

structure FLC where
  pred : BitVec 3
  l1 : Bool
  pd : BitVec 3
  ra : BitVec 5
  rb : BitVec 5
  cond : BitVec 3
deriving DecidableEq, Repr

/-- `lit` is the 40-bit literal of the L1 slot in literal form (R121, R154), none in the plain form. -/
structure FLV where
  pred : BitVec 3
  l1 : Bool
  rd : BitVec 5
  imm : BitVec 25
  lit : Option (BitVec 40)
deriving DecidableEq, Repr

structure FMP where
  pred : BitVec 3
  ra : BitVec 5
  rb : BitVec 5
  cnt : BitVec 8
  q : BitVec 5
  sc : BitVec 3
deriving DecidableEq, Repr

structure FMF where
  pred : BitVec 3
  ra : BitVec 5
  rb : BitVec 5
  cnt : BitVec 8
  q : BitVec 5
  rq : BitVec 5
  pen : Bool
  tc : BitVec 2
deriving DecidableEq, Repr

structure FMC where
  pred : BitVec 3
  ra : BitVec 5
  rb : BitVec 5
  cnt : BitVec 7
  mode : Bool
  q : BitVec 5
  rq : BitVec 5
  tc : BitVec 2
deriving DecidableEq, Repr

structure FCW where
  pred : BitVec 3
  q : BitVec 4
  n : BitVec 12
deriving DecidableEq, Repr

/-- Layout CB; `stop` is the STOP bit of the bundle header (R120, R136), false for BR and BDEC. -/
structure FCB where
  pred : BitVec 3
  target : BitVec 16
  ra : BitVec 5
  stop : Bool
deriving DecidableEq, Repr

structure FCK where
  pred : BitVec 3
  kmask : BitVec 8
  mode : Bool
  hw : Bool
  fa : BitVec 3
  fb : BitVec 3
  anch : BitVec 10
deriving DecidableEq, Repr

structure FCS where
  pred : BitVec 3
  rd : BitVec 5
  q : BitVec 4
deriving DecidableEq, Repr

structure FCA where
  pred : BitVec 3
  rd : BitVec 5
  ra : BitVec 5
  sc : BitVec 3
  f : Bool
  q : BitVec 5
deriving DecidableEq, Repr

/-- One operation of a bundle slot, as the front end decodes it (Tables 4.6, 4.11, 4.14, 4.16, 4.18). -/
inductive SlotOp where
  | tmma (f : FTM) | tfma (f : FTF) | trd (f : FTR) | kin (f : FTK)
  | vfma (f : FVR) | vadd (f : FVR) | vsub (f : FVR) | vmul (f : FVR) | vmin (f : FVR) | vmax (f : FVR)
  | vcmp (f : FVR) | viadd (f : FVR) | visub (f : FVR) | vand (f : FVR) | vor (f : FVR) | vxor (f : FVR)
  | vshl (f : FVR) | vshr (f : FVR) | vsra (f : FVR) | vkaddw (f : FVR) | vknar (f : FVR) | vsel (f : FVR)
  | vbcst (f : FVR) | vext (f : FVR) | vperm (f : FVR)
  | vcvtTo (f : FVX) | vcvtFrom (f : FVX) | vscan (f : FVN) | vsmr (f : FVQ) | vsmw (f : FVQ)
  | ldS (f : FLM) | stS (f : FLM) | ldR (f : FLM) | stR (f : FLM) | ldV (f : FLM) | stV (f : FLM)
  | ldT (f : FLM) | stT (f : FLM)
  | add (f : FLR) | sub (f : FLR) | and (f : FLR) | or (f : FLR) | xor (f : FLR)
  | shl (f : FLR) | shr (f : FLR) | sra (f : FLR) | mul (f : FLR)
  | addi (f : FLI) | andi (f : FLI) | shli (f : FLI) | shri (f : FLI)
  | scmp (f : FLC) | movi (f : FLV)
  | movPut (f : FMP) | movFetch (f : FMP) | movX (f : FMP) | send (f : FMF) | get (f : FMF) | msend (f : FMC)
  | wait (f : FCW) | signal (f : FCW) | br (f : FCB) | bdec (f : FCB) | spanBar (f : FCB) | kclr (f : FCK)
  | rdftc (f : FCS) | rdq (f : FCS) | ldvol (f : FCA) | ldacq (f : FCA) | strel (f : FCA)
deriving DecidableEq, Repr

/-! ## Fabric packets (Table 8.4) -/

/-- What follows a packet's header (R270, Table 9.4). -/
inductive Payload where
  | none
  /-- a tile and its record -/
  | tile (t : TileImg)
  /-- half a WIDE chunk: 256 elements of 80 bits -/
  | wide (d : BitVec 20480)
  /-- an F32P chunk: 512 elements of 32 bits -/
  | f32p (d : BitVec 16384)
  /-- rows of DISPATCH items, each with its row's bytes -/
  | rows (r : List Row)
deriving DecidableEq, Repr

/-- A packet: the header of Table 8.4 and its payload. -/
structure Packet where
  typ : BitVec 4
  tc : BitVec 2
  dl : Bool
  ph : Bool
  bank : Bool
  pen : Bool
  trk : Bool
  det : Bool
  min : Bool
  mc : Bool
  rty : Bool
  dstEp : BitVec 19
  srcEp : BitVec 19
  dstCoord : BitVec 15
  midCoord : BitVec 15
  dhint : BitVec 3
  offset : BitVec 40
  stream : BitVec 16
  epoch : BitVec 8
  pcount : BitVec 24
  rq : BitVec 5
  core : BitVec 9
  rgen : BitVec 16
  seq : BitVec 16
  tag : BitVec 32
  data8 : Word
  mask : Word
  status : BitVec 8
  coll : BitVec 24
  hcrc : BitVec 32
  payload : Payload
deriving DecidableEq, Repr

/-- A span-barrier arrival (R174, R175): the member, the span, its stamp and its two cause bits. -/
structure Arrival where
  pkg : BitVec 13
  core : CoreAddr
  /-- the span whose barrier is reached; `launch` marks the launch barrier (R178) -/
  span : Nat
  launch : Bool
  stamp : Word
  replayed : Bool
  throttled : Bool
deriving DecidableEq, Repr

/-! ## What a physical event reports -/

/-- The measurements a governor step reads (R395, R406 to R409). The manual leaves the thermal model's parameters
to the firmware, so its predictions arrive with the step. Powers are whole watts, temperatures whole °C. -/
structure GovInputs where
  demand : Nat
  floorp : Nat
  power : Nat
  slopeUp : Nat
  slopeDown : Nat
  fillMax : Nat
  /-- predicted temperature of cores, by packed address; a core not listed is not the hottest -/
  corePred : List (CoreAddr × Nat)
  /-- predicted temperature of HBM stacks: partition, stack -/
  hbmPred : List ((Fin 4 × Fin 6) × Nat)
  hot : Nat
  unc : Nat
  slope : BitVec 8
  /-- per partition: 1 when its VCORE can fall no further without a running core's natural rate going below its floor -/
  vcoreAtFloor : List (Fin 4)
  /-- cores whose natural rate at 0.85 V and present temperature is below their floor (R401) -/
  slowCores : List CoreAddr
deriving DecidableEq, Repr

/-- A test slice's outcome as the tested target gives it (R489, Table 14.2). -/
structure SliceResult where
  pass : Bool
  covSa : BitVec 16
  covTr : BitVec 16
  repaired : BitVec 16
  failmap : Word
deriving DecidableEq, Repr

/-- A management core's copy of a message (The management pair): the body, the sequence, the state digest, and
whether its CRC passes with no self-check failure flagged (R468 calls that intact). -/
structure PairCopy where
  body : Word
  seq : BitVec 32
  digest : Word
  intact : Bool
deriving DecidableEq, Repr

end Sys2Proof
end

