-- ==== Sys2Proof/Syntax.lean ====
section
/-! DEFINITION. The commands of the package: one constructor per row of the table of operations and events
(opcode_table.json), in the table's order. A docstring gives the row's mnemonic, its governing rule and its summary.
A command that the manual names by a register write carries the source and the value written; one that reports a
physical event carries what the event reports. -/

namespace Sys2Proof

inductive Instr where
  /-- REG_WRITE (R8): A control-space write to a register that has no row of its own sets its fields by their access codes; a misaligned access is discarded and counted under R5. -/
  | regWrite (src : RegSource) (addr : BitVec 28) (size : Nat) (v : Word)
  /-- BUNDLE_ISSUE (R103): The front end issues a whole bundle once its WAIT is met, there is no conflict, the range tracker has entries and the unit queues have room. -/
  | bundleIssue (c : CoreAddr)
  /-- TMMA (R139): Keystone multiply of two operand tiles into an accumulator tile. -/
  | tmma (c : CoreAddr) (f : FTM)
  /-- TFMA (R74): Float-path multiply of BF16 or FP32 tiles, summed by a fixed tree into the accumulator. -/
  | tfma (c : CoreAddr) (f : FTF)
  /-- TRD (R143): Reads out an accumulator, rounded to an output format, into t registers or core-local memory. -/
  | trd (c : CoreAddr) (f : FTR)
  /-- KIN (R147): Adds an 8-tile KS64 block into an accumulator after checking format and anchor. -/
  | kin (c : CoreAddr) (f : FTK)
  /-- T_OP_COMPLETE (R89): A T operation finishes on its pipe, updating the accumulator and its contribution count, with SAT forced past 2^40. -/
  | tOpComplete (c : CoreAddr) (pipe : Fin 4)
  /-- READOUT_COMPLETE (R101): A read-out writes its last output row and signals its completion counter. -/
  | readoutComplete (c : CoreAddr) (pipe : Fin 4)
  /-- VFMA (R148): Elementwise fused multiply-add with a single rounding. -/
  | vfma (c : CoreAddr) (f : FVR)
  /-- VADD (R148): Elementwise float add. -/
  | vadd (c : CoreAddr) (f : FVR)
  /-- VSUB (R148): Elementwise float subtract. -/
  | vsub (c : CoreAddr) (f : FVR)
  /-- VMUL (R148): Elementwise float multiply. -/
  | vmul (c : CoreAddr) (f : FVR)
  /-- VMIN (R547): Elementwise IEEE minimum. -/
  | vmin (c : CoreAddr) (f : FVR)
  /-- VMAX (R547): Elementwise IEEE maximum. -/
  | vmax (c : CoreAddr) (f : FVR)
  /-- VCMP (R148): Elementwise comparison that writes predicate bits. -/
  | vcmp (c : CoreAddr) (f : FVR)
  /-- VIADD (R148): Elementwise integer add, modulo the width. -/
  | viadd (c : CoreAddr) (f : FVR)
  /-- VISUB (R148): Elementwise integer subtract, modulo the width. -/
  | visub (c : CoreAddr) (f : FVR)
  /-- VAND (R148): Elementwise bitwise AND. -/
  | vand (c : CoreAddr) (f : FVR)
  /-- VOR (R148): Elementwise bitwise OR. -/
  | vor (c : CoreAddr) (f : FVR)
  /-- VXOR (R148): Elementwise bitwise XOR. -/
  | vxor (c : CoreAddr) (f : FVR)
  /-- VSHL (R148): Elementwise shift left. -/
  | vshl (c : CoreAddr) (f : FVR)
  /-- VSHR (R148): Elementwise logical shift right. -/
  | vshr (c : CoreAddr) (f : FVR)
  /-- VSRA (R148): Elementwise arithmetic shift right. -/
  | vsra (c : CoreAddr) (f : FVR)
  /-- VKADDW (R151): Adds KS64 lanes exactly into wide 128-bit lanes, propagating INV and SAT. -/
  | vkaddw (c : CoreAddr) (f : FVR)
  /-- VKNAR (R151): Narrows wide lanes to KS64 codes, deciding saturation on the exact sum. -/
  | vknar (c : CoreAddr) (f : FVR)
  /-- VSEL (R148): Elementwise select of bits under a predicate. -/
  | vsel (c : CoreAddr) (f : FVR)
  /-- VBCST (R148): Broadcasts the low bits of a scalar register to every element. -/
  | vbcst (c : CoreAddr) (f : FVR)
  /-- VEXT (R148): Extracts one 64-bit element into a scalar register. -/
  | vext (c : CoreAddr) (f : FVR)
  /-- VPERM (R148): Permutes elements by an index vector. -/
  | vperm (c : CoreAddr) (f : FVR)
  /-- VCVT_TO (R149): Converts FP32 elements to a narrower format under the given mode and scales. -/
  | vcvtTo (c : CoreAddr) (f : FVX)
  /-- VCVT_FROM (R149): Converts narrow or KS64 elements to FP32 or BF16. -/
  | vcvtFrom (c : CoreAddr) (f : FVX)
  /-- VSCAN (R152): Folds scale bytes into a scale-maximum register. -/
  | vscan (c : CoreAddr) (f : FVN)
  /-- VSMR (R152): Reads the state word of a scale-maximum register into a scalar register. -/
  | vsmr (c : CoreAddr) (f : FVQ)
  /-- VSMW (R152): Folds a state word from a scalar register into a scale-maximum register. -/
  | vsmw (c : CoreAddr) (f : FVQ)
  /-- LD_S (R153): Loads 8 bytes of core-local memory into a scalar register. -/
  | ldS (c : CoreAddr) (f : FLM)
  /-- ST_S (R153): Stores a scalar register to core-local memory. -/
  | stS (c : CoreAddr) (f : FLM)
  /-- LD_R (R153): Loads a 64-byte row into one row of a vector register, with tile checking. -/
  | ldR (c : CoreAddr) (f : FLM)
  /-- ST_R (R153): Stores one row of a vector register, correcting its row code. -/
  | stR (c : CoreAddr) (f : FLM)
  /-- LD_V (R153): Loads 512 bytes into a vector register, with tile checking. -/
  | ldV (c : CoreAddr) (f : FLM)
  /-- ST_V (R153): Stores a vector register to core-local memory. -/
  | stV (c : CoreAddr) (f : FLM)
  /-- LD_T (R153): Loads a checked tile with its format code and anchor into a t register. -/
  | ldT (c : CoreAddr) (f : FLM)
  /-- ST_T (R153): Stores a t register as a whole tile, writing a new record. -/
  | stT (c : CoreAddr) (f : FLM)
  /-- ADD (R153): Scalar add. -/
  | add (c : CoreAddr) (f : FLR)
  /-- SUB (R153): Scalar subtract. -/
  | sub (c : CoreAddr) (f : FLR)
  /-- AND (R153): Scalar AND. -/
  | and (c : CoreAddr) (f : FLR)
  /-- OR (R153): Scalar OR. -/
  | or (c : CoreAddr) (f : FLR)
  /-- XOR (R153): Scalar XOR. -/
  | xor (c : CoreAddr) (f : FLR)
  /-- SHL (R153): Scalar shift left. -/
  | shl (c : CoreAddr) (f : FLR)
  /-- SHR (R153): Scalar logical shift right. -/
  | shr (c : CoreAddr) (f : FLR)
  /-- SRA (R153): Scalar arithmetic shift right. -/
  | sra (c : CoreAddr) (f : FLR)
  /-- MUL (R153): Scalar multiply, low 64 bits. -/
  | mul (c : CoreAddr) (f : FLR)
  /-- ADDI (R153): Scalar add of an immediate. -/
  | addi (c : CoreAddr) (f : FLI)
  /-- ANDI (R153): Scalar AND with an immediate. -/
  | andi (c : CoreAddr) (f : FLI)
  /-- SHLI (R153): Scalar shift left by an immediate. -/
  | shli (c : CoreAddr) (f : FLI)
  /-- SHRI (R153): Scalar logical shift right by an immediate. -/
  | shri (c : CoreAddr) (f : FLI)
  /-- SCMP (R153): Scalar comparison that writes a predicate. -/
  | scmp (c : CoreAddr) (f : FLC)
  /-- MOVI (R154): Moves an immediate, or a 64-bit literal in literal form, into a scalar register. -/
  | movi (c : CoreAddr) (f : FLV)
  /-- MOV_PUT (R156): Moves tiles from core-local memory to a context address. -/
  | movPut (c : CoreAddr) (f : FMP)
  /-- MOV_FETCH (R156): Moves tiles from a context address into core-local memory. -/
  | movFetch (c : CoreAddr) (f : FMP)
  /-- MOV_X (R156): Moves tiles between two context addresses. -/
  | movX (c : CoreAddr) (f : FMP)
  /-- SEND (R156): Sends tiles from core-local memory to a fabric address, optionally with a remote NOTIFY. -/
  | send (c : CoreAddr) (f : FMF)
  /-- GET (R156): Reads tiles from a fabric address into core-local memory. -/
  | get (c : CoreAddr) (f : FMF)
  /-- MSEND (R160): Sends tiles to a block-mask or row/column multicast set. -/
  | msend (c : CoreAddr) (f : FMC)
  /-- MOVER_COMPLETE (R156): A mover operation has every write visible at its scope, sets its ledger bit and signals its counter. -/
  | moverComplete (c : CoreAddr) (id : Nat)
  /-- CORE_FAULT_ENTRY (R168): Once issued operations have drained after a deferred exception, the core enters FAULT and the launch's other local cores are fenced. -/
  | coreFaultEntry (c : CoreAddr)
  /-- WAIT (R99): Holds the bundle until a token counter reaches N, then subtracts N. -/
  | wait (c : CoreAddr) (f : FCW)
  /-- SIGNAL (R98): Adds N to a token counter at issue. -/
  | signal (c : CoreAddr) (f : FCW)
  /-- BR (R127): Unconditional branch to a bundle index. -/
  | br (c : CoreAddr) (f : FCB)
  /-- BDEC (R127): Decrements a scalar register and branches if it is non-zero. -/
  | bdec (c : CoreAddr) (f : FCB)
  /-- SPAN_BAR (R165): Ends the span, writes the span-entry record and puts the core in BARRIER. -/
  | spanBar (c : CoreAddr) (f : FCB)
  /-- KCLR (R161): Clears accumulators to float or Keystone mode with a program or hardware anchor. -/
  | kclr (c : CoreAddr) (f : FCK)
  /-- RDFTC (R104): Reads the FTC into a scalar register. -/
  | rdftc (c : CoreAddr) (f : FCS)
  /-- RDQ (R98): Reads a token counter into a scalar register. -/
  | rdq (c : CoreAddr) (f : FCS)
  /-- LDVOL (R254): Reads 8 bytes at the point of coherence, ordering nothing. -/
  | ldvol (c : CoreAddr) (f : FCA)
  /-- LDACQ (R163): Reads 8 bytes with acquire at a scope; later bundles wait for the value. -/
  | ldacq (c : CoreAddr) (f : FCA)
  /-- STREL (R162): Writes 8 bytes with release at a scope after earlier operations are visible. -/
  | strel (c : CoreAddr) (f : FCA)
  /-- STREL_VISIBLE (R162): A release write becomes visible at its scope and signals its counter. -/
  | strelVisible (c : CoreAddr) (id : Nat)
  /-- LOAD_RETURN (R163): The value of an LDVOL or LDACQ arrives in its scalar register and later bundles may issue. -/
  | loadReturn (c : CoreAddr)
  /-- BEAT_LIMIT_INTERVAL (R105): Every 1,000 FTC ticks the beat limiter starts a new interval and applies any changed LIMIT. -/
  | beatLimitInterval (c : CoreAddr)
  /-- FLOOR_MEASURE (R108): Every 10,000 ticks a running core compares its beats with its floor and may set BELOW_FLOOR. -/
  | floorMeasure (c : CoreAddr)
  /-- LOAD_FILL_START (R196): A WAIT that has held for 256 beats lets idle pipes run load fill. -/
  | loadFillStart (c : CoreAddr)
  /-- BARRIER_ARRIVAL (R176): A member's arrival with stamp and cause bits is received; on the last arrival D is updated and any overrun is classified and latched. -/
  | barrierArrival (g : Fin 64) (a : Arrival)
  /-- BARRIER_RELEASE (R175): With all arrivals held and the FTC at S_{k+1}+D, the member releases the barrier and enters the next span or STOPPED. -/
  | barrierRelease (c : CoreAddr)
  /-- CORE_WAIT_LIMIT (R183): A member not arrived by S_{k+1}+D+LIMIT is treated as failed and fenced. -/
  | coreWaitLimit (c : CoreAddr)
  /-- PACKAGE_WAIT_LIMIT (R184): A package still missing an arrival at the doubled limit fences the group's local cores; the LAUNCH ends TIMEOUT. -/
  | packageWaitLimit (g : Fin 64)
  /-- SPARE_REPLAY (R192): The spare is loaded with the code blob and newest record plus tally, and enters the span at NEXT. -/
  | spareReplay (c : CoreAddr)
  /-- CORE_HW_ERROR (R453): An uncorrectable parity or ECC error in a core fences it for failure. -/
  | coreHwError (c : CoreAddr)
  /-- TILE_WRITE_OPEN (R220): A whole-tile write opens at a point of coherence once earlier operations allow and takes generation g0+1. -/
  | tileWriteOpen (tile : BitVec 36)
  /-- TILE_WRITE_CLOSE (R220): After every row is stored, the header is stored with the new GEN and SUM, and the write closes. -/
  | tileWriteClose (tile : BitVec 36)
  /-- PARTIAL_WRITE (R222): A partial write opens and stores rows with code corrections and a rewritten SUM. -/
  | partialWrite (tile : BitVec 36)
  /-- TILE_READ (R222): A read opens at the point of coherence and reads its rows. -/
  | tileRead (tile : BitVec 36)
  /-- TILE_READ_HEADER (R245): A read's header read, after any open whole-tile write closes, serves the header with a fresh SUM. -/
  | tileReadHeader (tile : BitVec 36)
  /-- SCRUB_TILE (R228): The scrubber reads and classifies the next tile, poisoning a corrupt one. -/
  | scrubTile (p : Fin 4)
  /-- PT_INVALIDATE (R209): A GO write to MEM_PT_INV starts invalidation of translation-cache entries. -/
  | ptInvalidate (p : Fin 4) (v : Word)
  /-- PT_INVALIDATE_DONE (R209): The invalidation completes and BUSY falls. -/
  | ptInvalidateDone (p : Fin 4)
  /-- LINK_BLOCK (R267): A link block arrives on a port; its LCRC and sequence are checked, credits and ACK taken, and NAK replay requested if bad. -/
  | linkBlock (port : Fin 36) (block : BitVec 2176)
  /-- PACKET_FORWARD (R285): A router checks HCRC and forwards a packet along dimension order, by detour or multicast tree. -/
  | packetForward (port : Fin 36) (pkt : Packet)
  /-- SOURCE_SEND (R279): The source router checks slice and class, opens a stream if needed, and sends the packet when credits allow. -/
  | sourceSend (n : Nat)
  /-- WRITE_TILE (R280): A tile write request arrives at its destination and is checked at ingress before being written. -/
  | writeTile (port : Fin 36) (pkt : Packet)
  /-- READ_TILE (R280): A tile read request arrives and is served or refused. -/
  | readTile (port : Fin 36) (pkt : Packet)
  /-- WRITE8 (R280): An 8-byte write request arrives and is applied or refused. -/
  | write8 (port : Fin 36) (pkt : Packet)
  /-- READ8 (R280): An 8-byte read request arrives and is served or refused. -/
  | read8 (port : Fin 36) (pkt : Packet)
  /-- NOTIFY (R159): A remote counter increment arrives and is applied, tallied or refused. -/
  | notify (port : Fin 36) (pkt : Packet)
  /-- OPEN (R288): A stream opens at the destination tracker, tracked or untracked. -/
  | openStream (port : Fin 36) (pkt : Packet)
  /-- CLOSE (R294): A stream closes and the tracker frees its entry. -/
  | closeStream (port : Fin 36) (pkt : Packet)
  /-- MGMT (R281): A management register access arrives at local endpoint 0 and is performed if from FM_EP. -/
  | mgmt (port : Fin 36) (pkt : Packet)
  /-- ACK (R272): An ACK response reaches the requester and closes its request. -/
  | ack (port : Fin 36) (pkt : Packet)
  /-- READ_RESP (R272): Tile read data reaches the requester. -/
  | readResp (port : Fin 36) (pkt : Packet)
  /-- RESP8 (R272): 8-byte read or MGMT data reaches the requester. -/
  | resp8 (port : Fin 36) (pkt : Packet)
  /-- NACK (R292): A refusal reaches the requester, ending the request or resending a pennant. -/
  | nack (port : Fin 36) (pkt : Packet)
  /-- RESYNC (R305): A peer router answers a resynchronisation request with the last packet fully accepted. -/
  | resync (port : Fin 36) (last : BitVec 16)
  /-- SERVICE_PORT_REQUEST (R282): A request arriving on a service port is accepted or refused. -/
  | servicePortRequest (sport : Fin 6) (pkt : Packet)
  /-- PENNANT_EFFECT (R291): A held pennant takes effect once its epoch count and predecessor epoch are complete. -/
  | pennantEffect (die : Fin 2) (n : Nat)
  /-- STREAM_IDLE_CLOSE (R294): A stream idle for 10 µs after all answers sends CLOSE and frees its entry. -/
  | streamIdleClose (die : Fin 2) (n : Nat)
  /-- ARM (R300): A write of ARM in FAB_BANK_CTL arms a cutover to TARGET at FAB_BANK_AT. -/
  | arm (src : RegSource) (v : Word)
  /-- CUTOVER (R302): At FAB_BANK_AT the active bank changes and the old bank's open streams end. -/
  | cutover
  /-- EPT_READ (R25): FAB_EPT_IDX GO with WR 0 reads this instance's copy of an entry. -/
  | eptRead (die : Fin 2) (src : RegSource) (v : Word)
  /-- EPT_WRITE (R300): FAB_EPT_IDX GO with WR 1 writes an entry into both copies of an idle bank. -/
  | eptWrite (die : Fin 2) (src : RegSource) (v : Word)
  /-- EPT_LOAD (R315): A GO write to FAB_EPT_LOAD starts loading table tiles from the window of local endpoint 0. -/
  | eptLoad (die : Fin 2) (src : RegSource) (v : Word)
  /-- EPT_LOAD_DONE (R315): The table load ends, or stops with ERR. -/
  | eptLoadDone
  /-- TABLE_WALK (R475): Every 100 ms both table copies are compared, repaired or invalidated. -/
  | tableWalk
  /-- LANE_LOCK_LOSS (R265): A lane or half loses lock; the port changes width or fails. -/
  | laneLockLoss (port : Fin 36) (high : Bool)
  /-- PEER_DARK (R303): The peer of a port turns dark and the port fails. -/
  | peerDark (port : Fin 36)
  /-- NO_ACK_TIMEOUT (R303): A port with unacknowledged blocks gets no ACK for 10 µs and fails. -/
  | noAckTimeout (port : Fin 36)
  /-- RESYNC_RESEND (R307): Every 10 µs an unanswered RESYNC is sent again on each usable path. -/
  | resyncResend (port : Fin 36)
  /-- RESYNC_TIMEOUT (R305): No RESYNC answer in 50 µs; buffered packets are answered LINK_LOSS. -/
  | resyncTimeout (port : Fin 36)
  /-- PORT_TRAIN (R261): Link training ends, checking cabling, with the port up or FAILED MISWIRE. -/
  | portTrain (port : Fin 36) (peer : BitVec 15) (peerPort : BitVec 6) (lowOk highOk : Bool)
  /-- PORT_RETRAIN (R265): A port retrained at a new width rejoins its group. -/
  | portRetrain (port : Fin 36) (lowOk highOk : Bool)
  /-- PORT_DISABLE (R308): Clearing EN takes a port out of its group to drain. -/
  | portDisable (src : RegSource) (port : Fin 36) (v : Word)
  /-- PORT_DRAIN_DONE (R308): All blocks of a draining port are acknowledged and it turns dark. -/
  | portDrainDone (port : Fin 36)
  /-- ISOLATE_N (R414): ISOLATE_N asserted darkens transmitters, fences every partition and drops VCORE setpoints. -/
  | isolateN (asserted : Bool)
  /-- LSM_INSERT (R531): An inserted LSM announces itself; its identity is read and checked and it is lit. -/
  | lsmInsert (m : Fin 12) (identOk : Bool) (serial : BitVec 128) (hours rated : BitVec 32) (power : BitVec 8)
  /-- LSM_REMOVE (R520): An LSM is removed or silent for 10 ms; its ports run on the other half. -/
  | lsmRemove (m : Fin 12)
  /-- LSM_OFF (R520): Writing OFF darkens an LSM slot and writes back its hours. -/
  | lsmOff (src : RegSource) (m : Fin 12) (v : Word) (acked : Bool)
  /-- LSM_WRITE_BACK (R521): A WB write writes laser-on hours to the module. -/
  | lsmWriteBack (src : RegSource) (m : Fin 12) (v : Word) (acked : Bool)
  /-- LSM_HOURS (R521): After each 3,600 s of laser-on time the hours are written back. -/
  | lsmHours (m : Fin 12) (acked : Bool)
  /-- TIME_MARKER (R495): A time marker arrives in a port's FEC stream every 1 µs. -/
  | timeMarker (port : Fin 36) (peerFtc : Word) (offset : BitVec 32) (peerLock peerHoldover : Bool) (peerHops : BitVec 16)
  /-- FTC_STEER (R496): Every 1 ms the package averages offsets to its parent, steers or steps its FTC and may gain LOCK. -/
  | ftcSteer
  /-- HOLDOVER_EXPIRY (R497): After 60 s of holdover LOCK clears. -/
  | holdoverExpiry
  /-- FTC_SET (R494): A write of OBS_FTC_SET on the root sets fabric time and the epoch. -/
  | ftcSet (src : RegSource) (v : Word)
  /-- ALL_REDUCE (R338): COLLECTIVE command that reduces units across the group into every member. -/
  | allReduce (ring : Fin 64) (desc : BitVec 1024)
  /-- REDUCE_SCATTER (R338): COLLECTIVE command that leaves each member its owned reduced units. -/
  | reduceScatter (ring : Fin 64) (desc : BitVec 1024)
  /-- ALL_GATHER (R338): COLLECTIVE command that gathers owned units to every member. -/
  | allGather (ring : Fin 64) (desc : BitVec 1024)
  /-- DISPATCH (R347): COLLECTIVE command that sends items all-to-all within capacity. -/
  | dispatch (ring : Fin 64) (desc : BitVec 1024)
  /-- RESERVATION (R327): A waiting collective takes its slots on both engines and sends HELD. -/
  | reservation (collId : BitVec 32)
  /-- HELD (R328): The leader receives HELD and sends GO when all digests agree. -/
  | collHeld (port : Fin 36) (pkt : Packet)
  /-- GO (R328): A member package receives GO and starts its rings. -/
  | collGo (port : Fin 36) (pkt : Packet)
  /-- YIELD (R329): The leader receives YIELD and answers YIELD_OK or GO_SENT. -/
  | collYield (port : Fin 36) (pkt : Packet)
  /-- YIELD_OK (R329): A package releases its slots and waits again, or the collective ends. -/
  | yieldOk (port : Fin 36) (pkt : Packet)
  /-- GO_SENT (R329): A package keeps its slots and proceeds. -/
  | goSent (port : Fin 36) (pkt : Packet)
  /-- DATA (R343): A chunk or item arrives at an engine and its contribution is added; complete chunks move on. -/
  | collData (port : Fin 36) (pkt : Packet)
  /-- CREDIT (R342): Chunk credits return to a sending engine. -/
  | collCredit (port : Fin 36) (pkt : Packet)
  /-- FIN (R350): A source member's dispatch counts arrive at a destination package. -/
  | collFin (port : Fin 36) (pkt : Packet)
  /-- END (R353): An engine receives END and ends the collective, propagating END. -/
  | collEnd (port : Fin 36) (pkt : Packet)
  /-- RWAIT_EXPIRY (R330): No GO within RWAIT µs; the package sends YIELD with the expired flag. -/
  | rwaitExpiry (collId : BitVec 32)
  /-- DLIMIT_EXPIRY (R355): An engine waits DLIMIT µs without a packet and ends the collective TIMEOUT. -/
  | dlimitExpiry (die : Fin 2) (collId : BitVec 32)
  /-- COLL_RETRY (R331): A NACKed HELD or YIELD is repeated every 10 µs. -/
  | collRetry (collId : BitVec 32)
  /-- DOORBELL (R364): A doorbell advances a ring's TAIL if it is valid. -/
  | doorbell (src : DoorSource) (ring : Fin 64) (tail : BitVec 32)
  /-- COMMAND_START (R366): The package reads and checks the next descriptor and starts it once order, BARRIER and NOT_BEFORE allow, latching counters. -/
  | commandStart (ring : Fin 64)
  /-- COMMAND_COMPLETE (R368): A command completes, its record is written once and MSI-X sent, latching counters. -/
  | commandComplete (ring : Fin 64) (idx : BitVec 32)
  /-- LAUNCH (R173): Checks a schedule image, loads and relocates local cores and enters the launch barrier. -/
  | launch (ring : Fin 64) (desc : BitVec 1024)
  /-- MOVE_COPY (R374): Copies tiles between context addresses. -/
  | moveCopy (ring : Fin 64) (desc : BitVec 1024)
  /-- MOVE_PUT (R374): Writes tiles to a fabric address. -/
  | movePut (ring : Fin 64) (desc : BitVec 1024)
  /-- MOVE_GET (R374): Reads tiles from a fabric address. -/
  | moveGet (ring : Fin 64) (desc : BitVec 1024)
  /-- RDMA_WRITE (R374): Writes tiles to a remote queue pair over RoCEv2. -/
  | rdmaWrite (ring : Fin 64) (desc : BitVec 1024)
  /-- RDMA_READ (R374): Reads remote data over RoCEv2, making records on entry. -/
  | rdmaRead (ring : Fin 64) (desc : BitVec 1024)
  /-- FENCE_ORDER (R375): Completes when every earlier command of the ring has completed. -/
  | fenceOrder (ring : Fin 64) (desc : BitVec 1024)
  /-- FENCE_COMMAND (R375): Fences the named LAUNCH or COLLECTIVE of the ring. -/
  | fenceCommand (ring : Fin 64) (desc : BitVec 1024)
  /-- FENCE_DOMAIN (R375): Fences and resets a core, cluster, partition or context. -/
  | fenceDomain (ring : Fin 64) (desc : BitVec 1024)
  /-- COUNTERS (R492): Latches selected counters and writes a snapshot tile. -/
  | counters (ring : Fin 64) (desc : BitVec 1024)
  /-- MAINT (R482): Queues a test slice, fencing first if FORCE is set. -/
  | maint (ring : Fin 64) (desc : BitVec 1024)
  /-- MAP (R550): Mailbox request mapping contiguous physical pages at a context address. -/
  | mapPages (port : Fin 2) (ctx : Fin 16) (req : BitVec 512)
  /-- UNMAP (R550): Mailbox request unmapping pages and invalidating their translations. -/
  | unmapPages (port : Fin 2) (ctx : Fin 16) (req : BitVec 512)
  /-- EPW_SET (R379): Mailbox request making an endpoint window of a mapped range. -/
  | epwSet (port : Fin 2) (ctx : Fin 16) (req : BitVec 512)
  /-- EPW_CLR (R35): Mailbox request clearing VALID of a window. -/
  | epwClr (port : Fin 2) (ctx : Fin 16) (req : BitVec 512)
  /-- QUERY (R380): Mailbox request returning the context's use. -/
  | query (port : Fin 2) (ctx : Fin 16) (req : BitVec 512)
  /-- EPW_VALIDATE (R36): A write setting VALID of a window takes effect only for a legal range. -/
  | epwValidate (src : RegSource) (n : Fin 64) (v : Word)
  /-- EPW_IDLE (R35): A cleared window finishes its accepted packets and reports idle. -/
  | epwIdle (n : Fin 64)
  /-- RING_ENABLE (R369): Setting EN of a ring initialises its completion slots. -/
  | ringEnable (src : RegSource) (ring : Fin 64) (v : Word)
  /-- CONTEXT_DISABLE (R381): Clearing EN of a context fences it and stops its rings. -/
  | contextDisable (src : RegSource) (ctx : Fin 16) (v : Word)
  /-- BAR2_ACCESS (R358): A PF or VF BAR2 access reads or partially writes package memory or a ring. -/
  | bar2Access (port : Fin 2) (fn : PcieFn) (write : Bool) (off : BitVec 32) (len : Nat) (data : List Byte)
  /-- ROCE_REQUEST (R225): A remote RoCEv2 write or read arrives and data enters with a new record. -/
  | roceRequest (die : Fin 2) (write : Bool) (rkey : BitVec 32) (addr : BitVec 48) (tiles : Nat) (data : List TileData)
  /-- PCIE_LINK_DOWN (R362): A PCIe link goes down; its doorbells are ignored and host-window requests fail. -/
  | pcieLinkDown (port : Fin 2)
  /-- PERST (R532): PCIEn_PERST_N asserted acts as link-down and resets the port's HST fields. -/
  | perst (port : Fin 2)
  /-- VF_FLR (R361): An FLR of VFn resets context n. -/
  | vfFlr (port : Fin 2) (ctx : Fin 16)
  /-- PF_FLR (R361): An FLR of the PF stops that port's rings and resets its HST fields. -/
  | pfFlr (port : Fin 2)
  /-- KT_DBELL (R384): Custom instruction that rings a doorbell with release at package scope. -/
  | ktDbell (a : AppCore) (priv : Priv) (rd : BitVec 5) (rs1 rs2 : Word)
  /-- KT_FTC (R384): Custom instruction that reads the FTC. -/
  | ktFtc (a : AppCore) (priv : Priv) (rd : BitVec 5)
  /-- KT_TCHK (R384): Custom instruction that reads and classifies a tile without logging. -/
  | ktTchk (a : AppCore) (priv : Priv) (rd : BitVec 5) (rs1 : Word)
  /-- KT_SREL (R385): Custom store with release at a scope. -/
  | ktSrel (a : AppCore) (priv : Priv) (scope : BitVec 3) (rs1 rs2 : Word)
  /-- KT_LACQ (R385): Custom load with acquire at a scope. -/
  | ktLacq (a : AppCore) (priv : Priv) (scope : BitVec 3) (rd : BitVec 5) (rs1 : Word)
  /-- KT_SGRD (R384): Custom instruction that reads a group's CTL_SG_STAT. -/
  | ktSgrd (a : AppCore) (priv : Priv) (rd : BitVec 5) (rs1 : Word)
  /-- KT_SGFEN (R384): Custom instruction that fences every local core of a group. -/
  | ktSgfen (a : AppCore) (priv : Priv) (rs1 : Word)
  /-- GOVERNOR_STEP (R395): Every 100 µs the governor updates H, places fill, sheds power and throttles the hottest unit. -/
  | governorStep (inp : GovInputs)
  /-- THROTTLE_RELEASE (R406): Every ms, beat limits of cooled cores and the rate of cooled HBM stacks are raised. -/
  | throttleRelease (inp : GovInputs)
  /-- AVS_READ (R389): Every 100 µs the voltage and current of each AVSBus rail are read. -/
  | avsRead (volts amps : List (BitVec 16))
  /-- AVS_FAULT (R390): A regulator fails to acknowledge or reads out of range; its setpoints stop. -/
  | avsFault (rail : Fin 9)
  /-- COMMIT (R391): Writing COMMIT applies the staged envelope or sets ERR. -/
  | commit (src : RegSource) (v : Word)
  /-- EMERG (R400): Writing EMERG steps H down within 1 ms. -/
  | emerg (src : RegSource) (v : Word)
  /-- BEAT (R413): A heartbeat over I3C resets AGE and clears HB_LOST. -/
  | beat (src : RegSource) (v : Word)
  /-- HEARTBEAT_LOST (R413): No BEAT for 2,000 ms sets HB_LOST and freezes H. -/
  | heartbeatLost
  /-- COOLANT_WRITE (R411): A write of THM_COOL supplies coolant readings and resets AGE. -/
  | coolantWrite (src : RegSource) (v : Word)
  /-- COOLANT_AGE_EXPIRY (R411): AGE over 1,000 ms makes the model assume worst-case coolant. -/
  | coolantAgeExpiry
  /-- LEAK_SAMPLE (R412): Every 10 ms the leak loop is measured and a 30 ms-stable state accepted. -/
  | leakSample (ohms : BitVec 32)
  /-- SENSOR_SUSPECT (R410): A sensor low for 50 ms, or not answering, is replaced by the model plus 5 °C. -/
  | sensorSuspect (n : Fin 160) (answered : Bool) (reading : BitVec 8) (negative : Bool) (model : BitVec 8)
  /-- HBM_TEMP_READ (R231): Every 1 ms each stack's temperature is read for the thermal model. -/
  | hbmTempRead (p : Fin 4) (temps : List (BitVec 8))
  /-- THERMAL_SHUTDOWN (R409): A shutdown condition asserts THERMTRIP_N, fences every partition and records THM_TRIP. -/
  | thermalShutdown (model : Bool) (sensor : Fin 160) (temp : BitVec 8) (unc : BitVec 8)
  /-- RAIL_LOSS (R387): A rail out of range for over 20 µs fences a partition, stops the package or returns it to POR. -/
  | railLoss (rail : Fin 12) (lost : Bool)
  /-- VAUX_APPLY (R393): Applying VAUX resets sticky fields and the envelope to reset values. -/
  | vauxApply
  /-- PKG_RESET_N (R423): PKG_RESET_N asserted resets the package and ends a shutdown. -/
  | pkgResetN (asserted : Bool)
  /-- POR_EXIT (R418): 10 ms after rails in range and reset released, MGMT begins and the boot ROM verifies firmware. -/
  | porExit (refPresent fwActiveOk fwOtherOk : Bool)
  /-- MGMT_PHASE_END (R426): Management cores start and check life cycle, licence and configuration. -/
  | mgmtPhaseEnd (aOk bOk : Bool)
  /-- CLOCKS_PHASE_END (R427): Clocks and links are trained, leading to MEMORY or WAIT_CONFIG. -/
  | clocksPhaseEnd (linksOk : List (Fin 4)) (dieOk : Bool)
  /-- MEMORY_PHASE_END (R230): SRAM repair, HBM training and tile initialisation finish. -/
  | memoryPhaseEnd (hbmFail : List (Fin 4 × Fin 6)) (sramFail : List (Fin 4))
  /-- LINKS_PHASE_END (R422): Optical ports train and time lock is gained. -/
  | linksPhaseEnd
  /-- KNOWN_ANSWER_RUN (R434): A core's known-answer run completes; failures update the core map. -/
  | knownAnswerRun (p : Fin 4) (c : Fin 12) (fails : List (Fin 9))
  /-- READY (R422): All conditions hold and the package reports READY and accepts work. -/
  | ready
  /-- STORE_CONFIG (R429): Checks and stores a staged configuration container. -/
  | storeConfig (src : RegSource) (v : Word)
  /-- INSTALL_TOKEN (R438): Checks and installs a licence or transition token. -/
  | installToken (src : RegSource) (v : Word)
  /-- RST_CORE (R446): RST_CTL GO with KIND core fences and resets a core. -/
  | rstCore (p : Fin 4) (src : RegSource) (v : Word)
  /-- RST_CLUSTER (R446): RST_CTL GO with KIND cluster fences and resets a cluster. -/
  | rstCluster (p : Fin 4) (src : RegSource) (v : Word)
  /-- RST_PARTITION (R446): RST_CTL GO with KIND partition fences and resets a partition, optionally held. -/
  | rstPartition (p : Fin 4) (src : RegSource) (v : Word)
  /-- HOLD_RELEASE (R449): Clearing HOLD of a held partition runs RESTORE. -/
  | holdRelease (p : Fin 4) (src : RegSource) (v : Word)
  /-- RESET (R446): MGT_RST RESET write starts a package reset. -/
  | pkgReset (src : RegSource) (v : Word)
  /-- DRAIN_END (R446): Outstanding requests finish and CUT, GEN and RESET follow. -/
  | drainEnd (d : Domain)
  /-- DRAIN_TIMEOUT (R446): At half the budget the drain stops and CUT ends remaining requests. -/
  | drainTimeout (d : Domain)
  /-- RESET_ACK (R446): Every unit has acknowledged reset and RESTORE begins. -/
  | resetAck (d : Domain)
  /-- RESTORE_END (R446): The domain returns to service and RESET_DONE is reported. -/
  | restoreEnd (d : Domain)
  /-- RESET_BUDGET_EXPIRY (R447): A reset misses its budget and the larger domain is reset. -/
  | resetBudgetExpiry (d : Domain)
  /-- DUMP_UNIT_READ (R464): The dump engine finishes reading one unit and writes its record. -/
  | dumpUnitRead (payload : List TileData)
  /-- DUMP_UNIT_TIMEOUT (R464): A unit silent for 1 ms is recorded UNREADABLE. -/
  | dumpUnitTimeout
  /-- CYCLE_REPORT (R459): The wait-for detector reports a persistent cycle, optionally resetting the partition. -/
  | cycleReport (p : Fin 4) (queues : List (BitVec 10))
  /-- NOTICE_RETRY (R461): An unanswered notice is resent every 1 ms, up to 100 times. -/
  | noticeRetry (seq : BitVec 16)
  /-- PEER_FAIL (R462): MGT_PEER_FAIL GO ends the slice's launches and collectives with FENCED. -/
  | peerFail (src : RegSource) (v : Word)
  /-- PAIR_MESSAGE (R468): A comparator receives a management message copy and acts, fences or diverges. -/
  | pairMessage (a b : PairCopy)
  /-- PAIR_COPY_TIMEOUT (R468): The second copy misses 50 µs; the first is acted on and the silent core fenced. -/
  | pairCopyTimeout (fromB : Bool) (m : PairCopy)
  /-- RELOAD_DONE (R469): After divergence the standby has reloaded and both recompute the message. -/
  | reloadDone (a b : PairCopy)
  /-- RELOAD_TIMEOUT (R469): A reload over 2 ms fences the standby. -/
  | reloadTimeout
  /-- READMIT (R472): Resets a fenced management core and starts it in SHADOW. -/
  | readmit (src : RegSource) (v : Word)
  /-- SWAP (R473): Exchanges the management roles at a message boundary. -/
  | pairSwap (src : RegSource) (v : Word)
  /-- STANDBY_SELFTEST (R474): A standby self-test pass ends and is recorded, fencing on failure. -/
  | standbySelftest (pass : Bool) (cov tcov : BitVec 8)
  /-- SLICE_START (R483): A queued slice starts when its domain is idle or in a long-enough slot. -/
  | sliceStart
  /-- SLICE_END (R489): A slice ends, its target returns or fails, and the report is written. -/
  | sliceEnd (n : Nat) (r : SliceResult)
  /-- SLICE_CUT (R480): A slice reaching its catalogue duration stops with VERDICT fail and CUT. -/
  | sliceCut (n : Nat) (r : SliceResult)
  /-- SLICE_EXPIRE (R485): An unstarted slice past WAITLIM leaves the queue and ends TIMEOUT. -/
  | sliceExpire (n : Nat)
  /-- PERIODIC_SLICE_QUEUE (R486): Each PERIOD the package queues its own field slices. -/
  | periodicSliceQueue
  /-- LATCH (R493): OBS_LATCH GO latches every counter at one tick. -/
  | latch (src : RegSource) (v : Word)
  /-- PTC_TICK (R499): The Powered Time Counter counts a second and is stored every 60 s. -/
  | ptcTick
  /-- INVENTORY_UPDATE (R522): Every 60 s the inventory record is refreshed. -/
  | inventoryUpdate
  /-- TRACE_PACKET (R501): An application core emits a trace packet into its buffer share, or loses it. -/
  | tracePacket (a : AppCore) (priv : BitVec 2) (bytes : List Byte) (lost : Bool)
  /-- UPDATE_START (R506): MGT_UPD_CTL GO checks an update image header. -/
  | updateStart (src : RegSource) (v : Word)
  /-- STAGING_DONE (R507): All parts are copied and digests checked; STATE becomes STAGED. -/
  | stagingDone
  /-- ACT_AT (R508): At ACT_AT a staged package switches its activation record and applies parts. -/
  | actAt
  /-- APPLY (R510): Applies runtime and PHY parts to held partitions. -/
  | apply (src : RegSource) (v : Word)
  /-- ABORT (R514): Discards staged banks before ACT_AT. -/
  | abort (src : RegSource) (v : Word)
  /-- ROLLBACK (R513): Writing ROLLBACK while APPLYING reverts to the old banks. -/
  | rollback (src : RegSource) (v : Word)
  /-- PART_CHECK (R512): A part's post-activation check ends, leading to commit or rollback. -/
  | partCheck (part : Fin 7) (p : Fin 4) (pass : Bool)
  /-- CHECK_S_EXPIRY (R513): Management firmware not in COMPARE within CHECK_S fails its check. -/
  | checkSExpiry
  /-- ROLLBACK_DONE (R513): Every unit runs old parts; the report is written and STATE is IDLE. -/
  | rollbackDone
  /-- DIE_TO_DIE_LINK_DOWN (R26): A compute die's die-to-die link, or one of its channels with more than 4 failed lanes, goes down in service; the partition's traffic moves to the other link or the remaining channels, with requests held under R240. -/
  | dieToDieLinkDown (p : Fin 4) (south : Bool) (channel : Option (Fin 16))
  /-- LSM_DEGRADED (R317): An LSM's optical output falls below 90 % of rated and its slot enters DEGRADED. -/
  | lsmDegraded (m : Fin 12) (power : BitVec 8)
  /-- ENGINE_STOPS_ANSWERING (R445): A memory controller, table walker, Collective Engine, PCIe or Ethernet engine stops answering, and the package itself starts an engine reset. -/
  | engineStopsAnswering (d : Domain)
  /-- PCIE_LINK_UP (R362): A PCIe port's link finishes training and comes up, so doorbells and host-window requests through it are accepted again. -/
  | pcieLinkUp (port : Fin 2) (rate : BitVec 4) (width : BitVec 5)
deriving DecidableEq, Repr

end Sys2Proof
end

