-- ==== Sys2Proof/Decode.lean ====
section
/-! DEFINITION. Commands have no encoding: no row of opcode_table.json gives bits, so no word spells a command. The words
of a Fenyo bundle are read by the front end of a core (Sys2Proof.Machine.Bundle). -/

namespace Sys2Proof

/-- The command that a word spells by the table's bits: none, since no row gives bits. -/
def decodeTableWord (_nbits _w : Nat) : Option Instr := none

end Sys2Proof
end

