-- ==== Sys2Proof/Config.lean ====
section
/-! DEFINITION. What the manual leaves open, as constants with no body: nothing in Lean can evaluate one or prove a
value of it. Each is named in a row of notes/assumptions. -/

namespace Sys2Proof.Config

/-- A fresh free word: the argument is the model's counter `State.freeCtr`, which the step that uses it advances. -/
opaque freeWord : Nat → Word

/-- The 64 rows of an open whole-tile write that have been stored when a read of the tile looks (R220 step 5, R243:
rows are stored in any order). Bit r is row r. The argument is `State.freeCtr`. -/
opaque freeRows : Nat → BitVec 64

/-- A byte of host memory behind a host window, as a read at this moment returns it (host memory is outside the
package; the first argument is `State.freeCtr`). -/
opaque hostByte : Nat → Nat → Byte

/-- A byte of the memory of a remote RoCEv2 node (R374, R382), as a read at this moment returns it. -/
opaque remoteByte : Nat → Nat → Byte

/-- The NaN that a vector add, subtract, multiply or fused multiply-add gives: R148 states no payload. Only its sign
and its payload below the quiet bit are free. The arguments are the operands. -/
opaque nanBits : BitVec 32 → BitVec 32 → BitVec 32 → BitVec 32

/-- ECDSA P-384 verification (R425, R435, R505): public key, SHA-384 digest, signature. FIPS 186 is outside the manual. -/
opaque verifyEc : List Byte → BitVec 384 → List Byte → Bool

/-- ML-DSA-87 verification (R425, R435, R505): public key, SHA-384 digest, signature. FIPS 204 is outside the manual. -/
opaque verifyPq : List Byte → BitVec 384 → List Byte → Bool

/-- The Elverfort ECDSA and ML-DSA public keys held in the boot ROM (R435, R505). -/
opaque elverfortEc : List Byte
opaque elverfortPq : List Byte

/-- The Elverfort test key hash held in the boot ROM (R441). -/
opaque testKeyHash : BitVec 384

/-- The package serial (R422, Table 12.5): differs from package to package. -/
opaque serial : BitVec 128

/-- The silicon stepping of the package (Table 15.1, HWCOMPAT). -/
opaque stepping : Fin 32

/-- The lowest settings-block VER that a management firmware release supports (R518). -/
opaque lowestVer : BitVec 32 → BitVec 16

/-- The highest settings-block VER that it supports (R426, Table 15.2). -/
opaque highestVer : BitVec 32 → BitVec 16

/-- RESULT of an update that ends with a CAUSE for which the manual names no status: LATE, ABORTED, RESET, CHECK, REQUESTED (Table 15.10,
R508 to R515). -/
opaque updStatus : Nat → BitVec 8

/-- Which page-table entry a translation uses while a changed valid entry has not been invalidated: true for the
cached one (R209). The argument is `State.freeCtr`. -/
opaque useCached : Nat → Bool

/-- Which entry a full translation cache replaces (R209: not defined). The argument is `State.freeCtr`. -/
opaque victim : Nat → Nat

/-- The rate, in ticks per millisecond, to which a package steers its FTC for an offset to its parent in sixteenths of a
tick (R495 states no law). It is held to 100 either way (R496). -/
opaque steer : Int → Int

/-- Whether the governor raises a VCORE setpoint by a step while demand does not exceed the hold level (the manual gives no rule). The
argument is `State.freeCtr`. -/
opaque raiseVcore : Nat → Bool

/-- The load fill, in sixteenths, of the pipes of a core (R402, R403: the calibration is in the firmware). The arguments are
`State.freeCtr` and the number of the core. -/
opaque fillAmount : Nat → Nat → Fin 17

/-- Another package of a collective has written a saturated result that this one does not see (R337). The argument is
`State.freeCtr`. -/
opaque satElsewhere : Nat → Bool

/-- A laser module acknowledges the write-back that a control-space write asks for. -/
opaque lsmAck : Nat → Bool

/-- The bits of a register that keep the block scale where a VCVT to an MX format names one register for its elements and for its
scales (R149 names no order). The argument is the operand. -/
opaque scaleOver : BitVec 4096 → BitVec 4096

end Sys2Proof.Config
end

