-- ==== Sys2Proof/Machine/Map.lean ====
section
/-! DEFINITION. Sparse arrays and bit fields. A sparse array is a list of (key, value) pairs in one canonical form: keys
strictly rising, and no entry equal to the default of its key. Writing the default of a key removes its entry, so equal
arrays are equal lists. -/

namespace Sys2Proof.Machine

/-- A sparse array from natural numbers. -/
abbrev Map (α : Type) := List (Nat × α)

/-- The value at `k`; `d` gives what an unlisted key reads as. -/
def mget {α : Type} (d : Nat → α) (m : Map α) (k : Nat) : α :=
  match m with
  | [] => d k
  | (j, v) :: r => if j = k then v else mget d r k

/-- The entries for the keys `lo` to `lo + n - 1`, holding `f`; a key whose value is its default has none. -/
def mtab {α : Type} [DecidableEq α] (d : Nat → α) (f : Nat → α) : Nat → Nat → Map α
  | 0, _ => []
  | n + 1, lo => if f lo = d lo then mtab d f n (lo + 1) else (lo, f lo) :: mtab d f n (lo + 1)

/-- The array with `f` at the keys `lo` to `lo + n - 1`, in canonical form where it was in it. -/
def mfill {α : Type} [DecidableEq α] (d : Nat → α) (m : Map α) (lo n : Nat) (f : Nat → α) : Map α :=
  m.filter (fun e => decide (e.1 < lo)) ++ mtab d f n lo ++ m.filter (fun e => decide (lo + n ≤ e.1))

/-- The array with `v` at `k`. -/
def mput {α : Type} [DecidableEq α] (d : Nat → α) (m : Map α) (k : Nat) (v : α) : Map α :=
  mfill d m k 1 fun _ => v

/-- The values at the keys `lo` to `lo + n - 1`. -/
def mslice {α : Type} (d : Nat → α) (m : Map α) (lo n : Nat) : List α :=
  let near := m.filter fun e => decide (lo ≤ e.1 ∧ e.1 < lo + n)
  (List.range n).map fun i => mget d near (lo + i)

/-- Keys strictly rise and every key is above `lo` (none: no bound). -/
def mrising {α : Type} : Option Nat → Map α → Bool
  | _, [] => true
  | none, (k, _) :: r => mrising (some k) r
  | some lo, (k, _) :: r => decide (lo < k) && mrising (some k) r

/-- No entry holds the default of its key. -/
def mnodef {α : Type} [DecidableEq α] (d : Nat → α) (m : Map α) : Bool :=
  m.all fun e => decide (e.2 ≠ d e.1)

/-- The canonical form. -/
def mwf {α : Type} [DecidableEq α] (d : Nat → α) (m : Map α) : Bool :=
  mrising none m && mnodef d m

/-- Rewrites the value at `k` by `f`. -/
def mmod {α : Type} [DecidableEq α] (d : Nat → α) (m : Map α) (k : Nat) (f : α → α) : Map α :=
  mput d m k (f (mget d m k))

/-! ## Bit fields of a 64-bit word: [hi:lo] with bit 0 the least significant (Scope, Notation) -/

/-- The field of `w` bits at bit `lo`, as a number. -/
def fieldN (x : Word) (lo w : Nat) : Nat := (x.toNat >>> lo) % 2 ^ w

/-- The field of `w` bits at bit `lo`. -/
def field (x : Word) (lo w : Nat) : BitVec w := (x >>> lo).setWidth w

/-- Bit `i`. -/
def bit (x : Word) (i : Nat) : Bool := x.getLsbD i

/-- A word whose bits lo to lo+w-1 are ones. -/
def ones (lo w : Nat) : Word := BitVec.ofNat 64 ((2 ^ w - 1) <<< lo)

/-- `x` with the `w` bits at `lo` set to those of `v`. -/
def setField (x : Word) (lo w : Nat) (v : Nat) : Word :=
  (x &&& ~~~ (ones lo w)) ||| (BitVec.ofNat 64 ((v % 2 ^ w) <<< lo))

/-- `x` with bit `i` set to `b`. -/
def setBit (x : Word) (i : Nat) (b : Bool) : Word := setField x i 1 (if b then 1 else 0)

/-- A write of `v` to a register (R8): bits of `rw` take the value written, bits of `w1c` are cleared by a 1,
every other bit keeps its value. -/
def regMerge (old v : Word) (rw w1c : Word) : Word :=
  (old &&& ~~~ rw &&& ~~~ (w1c &&& v)) ||| (v &&& rw)

/-- Counts up and holds at the largest value of the field (R232, R314, R386). -/
def bumpHold (x : Word) (lo w : Nat) : Word :=
  let n := fieldN x lo w
  if n + 1 < 2 ^ w then setField x lo w (n + 1) else x

/-- Counts up modulo 2^w. -/
def bumpWrap (x : Word) (lo w : Nat) : Word :=
  setField x lo w (fieldN x lo w + 1)

/-- Adds `k`, holding at the largest value of the field. -/
def addHold (x : Word) (lo w k : Nat) : Word :=
  setField x lo w (Nat.min (fieldN x lo w + k) (2 ^ w - 1))

/-- The `n` bytes of `x` from byte `i` on, least significant first. -/
def bytesOf (w : Nat) (x : BitVec w) (n : Nat) : List Byte :=
  (List.range n).map fun i => (x >>> (8 * i)).setWidth 8

/-- The number whose little-endian bytes are `l`. -/
def leNat : List Byte → Nat
  | [] => 0
  | b :: r => b.toNat + 256 * leNat r

/-- `n` bytes of `l` from offset `o` on, as a little-endian number; bytes past the end count as zero. -/
def leAt (l : List Byte) (o n : Nat) : Nat := leNat ((l.drop o).take n)

/-- The first element that satisfies `f`, with its index. -/
def findIdx {α : Type} (f : α → Bool) : List α → Option (Nat × α)
  | [] => none
  | a :: r => if f a then some (0, a) else (findIdx f r).map fun (i, b) => (i + 1, b)

/-- Replaces the elements that satisfy `f` by `g` of them. -/
def updWhere {α : Type} (f : α → Bool) (g : α → α) (l : List α) : List α :=
  l.map fun a => if f a then g a else a

/-- Runs `f` on every element in turn. -/
def foldS {σ α : Type} (l : List α) (s : σ) (f : σ → α → σ) : σ := l.foldl f s

end Sys2Proof.Machine
end

