-- ==== Sys2Proof/Machine/Formats.lean ====
section
/-! DEFINITION. Number formats (Number formats and Keystone accumulation): element formats and their exact values,
rounding, IEEE 754 arithmetic on binary32 and BF16, and the codes that name formats. -/

namespace Sys2Proof.Machine

/-- The element formats of Table 2.1 and INT8 (R45). -/
inductive EFmt where
  | e2m1 | e2m3 | e3m2 | e4m3 | e5m2 | int8 | bf16 | fp32
deriving DecidableEq, Repr

/-- Width of an element in bits. -/
def EFmt.bits : EFmt → Nat
  | .e2m1 => 4 | .e2m3 => 6 | .e3m2 => 6 | .e4m3 => 8 | .e5m2 => 8 | .int8 => 8 | .bf16 => 16 | .fp32 => 32

/-- Mantissa bits (Table 2.1). -/
def EFmt.man : EFmt → Nat
  | .e2m1 => 1 | .e2m3 => 3 | .e3m2 => 2 | .e4m3 => 3 | .e5m2 => 2 | .int8 => 0 | .bf16 => 7 | .fp32 => 23

/-- Exponent bits (Table 2.1). -/
def EFmt.exp : EFmt → Nat
  | .e2m1 => 2 | .e2m3 => 2 | .e3m2 => 3 | .e4m3 => 4 | .e5m2 => 5 | .int8 => 0 | .bf16 => 8 | .fp32 => 8

/-- Exponent bias (Table 2.1). -/
def EFmt.bias : EFmt → Nat
  | .e2m1 => 1 | .e2m3 => 1 | .e3m2 => 3 | .e4m3 => 7 | .e5m2 => 15 | .int8 => 0 | .bf16 => 127 | .fp32 => 127

/-- The code of the largest finite magnitude (Table 2.1). -/
def EFmt.maxCode : EFmt → Nat
  | .e2m1 => 0x7 | .e2m3 => 0x1F | .e3m2 => 0x1F | .e4m3 => 0x7E | .e5m2 => 0x7B | .int8 => 127
  | .bf16 => 0x7F7F | .fp32 => 0x7F7FFFFF

/-- Bound exponent E (Table 2.2); used for Keystone-path formats alone. -/
def EFmt.bound : EFmt → Int
  | .e2m1 => 3 | .e2m3 => 3 | .e3m2 => 5 | .e4m3 => 9 | .e5m2 => 16 | .int8 => 8 | .bf16 => 0 | .fp32 => 0

/-- emax, the exponent of the largest normal (Table 2.2). -/
def EFmt.emax : EFmt → Int
  | .e2m1 => 2 | .e2m3 => 2 | .e3m2 => 4 | .e4m3 => 8 | .e5m2 => 15 | .int8 => 0 | .bf16 => 127 | .fp32 => 127

/-- An exact finite value: the sign, and the magnitude m x 2^e. A zero keeps its sign. -/
structure Dy where
  neg : Bool
  m : Nat
  e : Int
deriving DecidableEq, Repr

/-- What an element code stands for. -/
inductive Val where
  | nan
  | inf (neg : Bool)
  | fin (d : Dy)
deriving DecidableEq, Repr

/-- The value of a finite code by R42. -/
def finiteVal (f : EFmt) (c : Nat) : Dy :=
  let neg := (c >>> (f.exp + f.man)) % 2 == 1
  let e := (c >>> f.man) % 2 ^ f.exp
  let m := c % 2 ^ f.man
  if e = 0 then ⟨neg, m, 1 - (f.bias : Int) - f.man⟩
  else ⟨neg, 2 ^ f.man + m, (e : Int) - f.bias - f.man⟩

/-- The value of an element code (R41 to R45). -/
def decodeElem (f : EFmt) (c : Nat) : Val :=
  let e := (c >>> f.man) % 2 ^ f.exp
  let m := c % 2 ^ f.man
  match f with
  | .int8 => if c % 256 < 128 then .fin ⟨false, c % 256, 0⟩ else .fin ⟨true, 256 - c % 256, 0⟩
  | .e2m1 | .e2m3 | .e3m2 => .fin (finiteVal f c)
  | .e4m3 => if e = 15 ∧ m = 7 then .nan else .fin (finiteVal f c)
  | .e5m2 | .bf16 | .fp32 =>
    if e = 2 ^ f.exp - 1 then
      if m = 0 then .inf ((c >>> (f.exp + f.man)) % 2 == 1) else .nan
    else .fin (finiteVal f c)

/-- The finite value, or none for a NaN or an infinity: the invalid elements of R58. -/
def Val.finite : Val → Option Dy
  | .fin d => some d
  | _ => none

/-- Multiplies by 2^k. -/
def Dy.scale (d : Dy) (k : Int) : Dy := ⟨d.neg, d.m, d.e + k⟩

/-- An E8M0 scale's exponent (R44); none for NaN. -/
def e8m0 (u : Nat) : Option Int := if u % 256 = 255 then none else some ((u % 256 : Nat) - 127)

/-! ## Rounding -/

/-- Rounding modes (R70, R77, R148). -/
inductive Rm where
  | rne | rtz | sr | up | down
deriving DecidableEq, Repr

/-- The magnitude of `d` in units of 2^q, rounded to an integer. `r` is the value of R71 for SR. -/
def roundMag (rm : Rm) (r : Nat) (d : Dy) (q : Int) : Nat :=
  let sh := q - d.e
  if sh ≤ 0 then d.m <<< sh.natAbs
  else
    let k := sh.natAbs
    let n := d.m >>> k
    let rem := d.m % 2 ^ k
    let away := match rm with
      | .rne => decide (2 ^ k < 2 * rem ∨ (2 * rem = 2 ^ k ∧ n % 2 = 1))
      | .rtz => false
      | .sr => decide (r < (rem <<< 24) >>> k)
      | .up => !d.neg && decide (rem ≠ 0)
      | .down => d.neg && decide (rem ≠ 0)
    if away then n + 1 else n

/-- Puts the sign bit on a magnitude code. -/
def signed (f : EFmt) (neg : Bool) (c : Nat) : Nat := if neg then c + 2 ^ (f.bits - 1) else c

/-- The code of infinity of a format that has one. -/
def infCode (f : EFmt) : Nat := (2 ^ f.exp - 1) <<< f.man

/-- Rounds a finite value to a format, with whether it was clamped or overflowed to infinity (Table 2.7). The sign of
a zero is that of the source; R72 and R545 settle it at the caller. -/
def roundTo (f : EFmt) (rm : Rm) (r : Nat) (d : Dy) : Nat × Bool :=
  match f with
  | .int8 =>
    let n := roundMag rm r d 0
    let (n, o) := if 127 < n then (127, true) else (n, false)
    (if d.neg ∧ n ≠ 0 then 256 - n else n, o)
  | _ =>
    if d.m = 0 then (signed f d.neg 0, false)
    else
      let emin : Int := 1 - f.bias
      let top : Int := (Nat.log2 d.m : Int) + d.e
      let ex := if top < emin then emin else top
      let n := roundMag rm r d (ex - f.man)
      let c := (ex - emin).natAbs <<< f.man
      let c := c + n
      if c ≤ f.maxCode then (signed f d.neg c, false)
      else
        let toInf := (f = .fp32 ∨ f = .bf16) ∧
          (rm = .rne ∨ rm = .sr ∨ (rm = .up ∧ d.neg = false) ∨ (rm = .down ∧ d.neg = true))
        (signed f d.neg (if toInf then infCode f else f.maxCode), true)

/-- The invalid marker of Table 2.7 for an element of a format without block scales. -/
def invalidCode : EFmt → Nat
  | .fp32 => 0x7FC00000 | .bf16 => 0x7FC0 | .e4m3 => 0x7F | .e5m2 => 0x7F | .int8 => 0x80 | _ => 0

/-- The mixing function of R71. -/
def mix (z : Word) : Word :=
  let z := (z ^^^ (z >>> 30)) * 0xBF58476D1CE4E5B9#64
  let z := (z ^^^ (z >>> 27)) * 0x94D049BB133111EB#64
  z ^^^ (z >>> 31)

/-- The value r of R71, 24 bits. -/
def srValue (seed dest : Word) (e : Nat) : Nat :=
  (mix (seed ^^^ mix (dest ^^^ (BitVec.ofNat 64 e <<< 48))) >>> 40).toNat

/-! ## IEEE 754 arithmetic, for the float path (R74, R75) and the vector unit (R148). A result of none is a NaN. -/

/-- The exact sum, with the zero sign of IEEE 754. -/
def addDy (rm : Rm) (a b : Dy) : Dy :=
  let e := min a.e b.e
  let x : Int := (a.m <<< (a.e - e).natAbs : Nat)
  let y : Int := (b.m <<< (b.e - e).natAbs : Nat)
  let t := (if a.neg then -x else x) + (if b.neg then -y else y)
  if t = 0 then ⟨(a.neg && b.neg) || (a.neg != b.neg && rm == .down), 0, e⟩
  else ⟨decide (t < 0), t.natAbs, e⟩

/-- The exact product. -/
def mulDy (a b : Dy) : Dy := ⟨a.neg != b.neg, a.m * b.m, a.e + b.e⟩

/-- Rounds an IEEE 754 value to binary32 or BF16. -/
def packVal (f : EFmt) (rm : Rm) : Val → Option Nat
  | .nan => none
  | .inf n => some (signed f n (infCode f))
  | .fin d => some (roundTo f rm 0 d).1

def addVal (rm : Rm) : Val → Val → Val
  | .nan, _ => .nan
  | _, .nan => .nan
  | .inf a, .inf b => if a = b then .inf a else .nan
  | .inf a, _ => .inf a
  | _, .inf b => .inf b
  | .fin a, .fin b => .fin (addDy rm a b)

def mulVal : Val → Val → Val
  | .nan, _ => .nan
  | _, .nan => .nan
  | .inf a, .inf b => .inf (a != b)
  | .inf a, .fin b => if b.m = 0 then .nan else .inf (a != b.neg)
  | .fin a, .inf b => if a.m = 0 then .nan else .inf (a.neg != b)
  | .fin a, .fin b => .fin (mulDy a b)

def negVal : Val → Val
  | .nan => .nan
  | .inf a => .inf !a
  | .fin a => .fin { a with neg := !a.neg }

/-- Compares finite values: a < b. -/
def ltDy (a b : Dy) : Bool :=
  let e := min a.e b.e
  let x : Int := (a.m <<< (a.e - e).natAbs : Nat)
  let y : Int := (b.m <<< (b.e - e).natAbs : Nat)
  decide ((if a.neg then -x else x) < (if b.neg then -y else y))

/-- IEEE 754 less-than; false when either operand is NaN. -/
def ltVal : Val → Val → Bool
  | .nan, _ => false
  | _, .nan => false
  | .inf a, .inf b => a && !b
  | .inf a, .fin _ => a
  | .fin _, .inf b => !b
  | .fin a, .fin b => ltDy a b

def isNan : Val → Bool
  | .nan => true
  | _ => false

/-- IEEE 754 equality: false with a NaN, and -0 equals +0. -/
def eqVal (a b : Val) : Bool := !isNan a && !isNan b && !ltVal a b && !ltVal b a

def negOf : Val → Bool
  | .nan => false
  | .inf a => a
  | .fin a => a.neg

/-- The orders of R547: -0 below +0. -/
def below (a b : Val) : Bool := ltVal a b || (eqVal a b && negOf a && !negOf b)

/-! ## Format codes -/

/-- The Keystone operand format codes of Table 4.8: element format, and whether it is an MX format. -/
def kfmt (c : BitVec 3) : EFmt × Bool :=
  match c.toNat with
  | 0 => (.e2m1, true) | 1 => (.e2m3, true) | 2 => (.e3m2, true) | 3 => (.e4m3, true) | 4 => (.e5m2, true)
  | 5 => (.e4m3, false) | 6 => (.e5m2, false) | _ => (.int8, false)

/-- The format code of a tile (Table 2.4). -/
def formatCode (f : EFmt) (mx : Bool) : BitVec 8 :=
  match f with
  | .int8 => 1 | .e4m3 => if mx then 0x13 else 2 | .e5m2 => if mx then 0x14 else 3 | .bf16 => 4 | .fp32 => 5
  | .e2m1 => 0x10 | .e2m3 => 0x11 | .e3m2 => 0x12

/-- Format codes of Table 2.4 that are not element formats. -/
def fmtUntyped : BitVec 8 := 0
def fmtE8M0 : BitVec 8 := 0x18
def fmtKS64 : BitVec 8 := 0x20

/-- The anchor field of a tile that is not KS64 (R48). -/
def noAnchor : BitVec 16 := 0x8000

/-- Table 2.4 names the code. -/
def knownFormat (c : BitVec 8) : Bool :=
  c.toNat ∈ [0, 1, 2, 3, 4, 5, 0x10, 0x11, 0x12, 0x13, 0x14, 0x18, 0x20]

/-- What TRD and VCVT convert to or from (Table 4.9). -/
inductive OutFmt where
  | plain (f : EFmt)
  | mx (f : EFmt)
  /-- MXFP4 into rows 32-63 -/
  | mxHigh
  | ks64
  | ks64bf16
deriving DecidableEq, Repr

/-- Table 4.9; none for the reserved codes. -/
def outFmt (c : BitVec 4) : Option OutFmt :=
  match c.toNat with
  | 0 => some (.plain .fp32) | 1 => some (.plain .bf16) | 2 => some (.plain .e4m3) | 3 => some (.plain .e5m2)
  | 4 => some (.plain .int8) | 5 => some (.mx .e4m3) | 6 => some (.mx .e5m2) | 7 => some (.mx .e2m3)
  | 8 => some (.mx .e3m2) | 9 => some (.mx .e2m1) | 10 => some .mxHigh | 11 => some .ks64 | 12 => some .ks64bf16
  | _ => none

/-- Elements in a row of a tile (Table 2.3). -/
def elemsPerRow : EFmt → Nat
  | .e2m1 => 128 | .bf16 => 32 | .fp32 => 16 | _ => 64

/-- Bits `[lo+w-1:lo]` of a long word as a number. -/
def bitsAt {n : Nat} (x : BitVec n) (lo w : Nat) : Nat := (x.toNat >>> lo) % 2 ^ w

/-- Element `i` of row `r` of a tile (R46). -/
def tileElem (t : TileData) (f : EFmt) (r i : Nat) : Nat := bitsAt t (512 * r + f.bits * i) f.bits

/-- Row `r` of a tile. -/
def tileRow (t : TileData) (r : Nat) : Row := (t >>> (512 * r)).setWidth 512

/-- A long word from numbers of `w` bits, the first in the lowest bits. -/
def packNat (w : Nat) : List Nat → Nat
  | [] => 0
  | c :: r => c % 2 ^ w + 2 ^ w * packNat w r

/-- A tile from its 64 rows. -/
def tileOfRows (rows : List Row) : TileData := BitVec.ofNat 32768 (packNat 512 (rows.map BitVec.toNat))

/-- A tile with row `r` replaced. -/
def setRow (t : TileData) (r : Nat) (v : Row) : TileData :=
  let m : TileData := BitVec.ofNat 32768 ((2 ^ 512 - 1) <<< (512 * r))
  (t &&& ~~~m) ||| (BitVec.ofNat 32768 (v.toNat <<< (512 * r)))

/-- A tile with the elements of row `r` given as codes; bytes past the elements are zero (R47). -/
def rowOfElems (f : EFmt) (codes : List Nat) : Row := BitVec.ofNat 512 (packNat f.bits codes)

end Sys2Proof.Machine
end

