-- ==== Sys2Proof/Machine/StCore.lean ====
section
/-! DEFINITION. The state of a Fenyo tensor core (The Fenyo tensor core; Fenyo instruction set; Spans, The
span-entry record, Ledger and tally). -/

namespace Sys2Proof.Machine

/-- Core states (Table 3.7). -/
inductive CoreSt where
  | stopped | run | barrier | fault | fenced
deriving DecidableEq, Repr

/-- An accumulator element (R51): the 128-bit integer N and the flags. In float mode bits [31:0] hold the binary32
value (R75). -/
structure AccElem where
  n : BitVec 128
  inv : Bool
  sat : Bool
deriving DecidableEq, Repr

/-- An accumulator register: mode, anchor and count of the tile (R52) and its 64 x 64 elements, index 64 i + j. -/
structure Acc where
  keystone : Bool
  anchor : BitVec 16
  count : Nat
  elems : Map AccElem
deriving DecidableEq, Repr

/-- A t register: a tile, its format code and its anchor (R83). -/
structure TReg where
  data : TileData
  fmt : BitVec 8
  anchor : BitVec 16
deriving DecidableEq, Repr

/-- A register name, for the conflict test of R94. -/
inductive RegName where
  | s (n : Nat) | v (n : Nat) | t (n : Nat) | k (n : Nat) | p (n : Nat) | q (n : Nat) | sma | smb
deriving DecidableEq, Repr

/-- A range of core-local bytes that an operation touches (R94, R96). -/
structure LocalRange where
  lo : Nat
  hi : Nat
  write : Bool
deriving DecidableEq, Repr

/-- An operand tile as a T operation takes it: the tile, and the local address it was fetched from when MA, MB or ML
is 1 (R137, R147). A tile fetched from memory is checked (R109). -/
structure TileSrc where
  img : TileImg
  addr : Option Nat
deriving DecidableEq, Repr

/-- Kinds of mover operation (Table 4.16). -/
inductive MoverKind where
  | put | fetch | x | send | get | msend
deriving DecidableEq, Repr

/-- What an operation in flight will do when it completes, with its operands as the issue read them (R94). -/
inductive FlightKind where
  /-- TMMA: formats, scale strips or tensor scales of A and B, HALF -/
  | keyMul (kd : Nat) (a b : TileSrc) (fa fb : BitVec 3) (sa sb : BitVec 2048) (ta tb : Byte) (half : Bool)
  /-- TFMA; `fp32` is FP -/
  | floatMul (kd : Nat) (a b : TileSrc) (fp32 : Bool)
  | kin (kd : Nat) (tiles : List TileSrc)
  /-- TRD: the local destination when ML is 1, the seed and destination word of SR, the tensor scale -/
  | trd (f : FTR) (dst : Nat) (seed dest : Word) (scale : Byte)
  /-- a mover operation with `left` tiles not yet done -/
  | mover (k : MoverKind) (left : Nat) (sc : BitVec 3)
  /-- STREL: its address, whether it is a fabric address, its scope and its data; `sent` once its write has left -/
  | strel (addr : Word) (f : Bool) (sc : BitVec 3) (data : Word) (sent done : Bool)
  /-- LDVOL or LDACQ: the register, the address, and the value once it has arrived -/
  | load (rd : Nat) (addr : Word) (acq : Bool) (value : Option Word)
deriving DecidableEq, Repr

/-- An operation in flight: its number, slot and bundle (for CORE_FAULT), completion counter, the registers and
local ranges it holds, and its number among the outbound operations of its span (R189). -/
structure Flight where
  id : Nat
  slot : BitVec 3
  bundle : BitVec 16
  q : BitVec 5
  reads : List RegName
  writes : List RegName
  ranges : List LocalRange
  outIdx : Option Nat
  /-- a tile of it was refused: it signals nothing (R168) -/
  failed : Bool
  kind : FlightKind
deriving DecidableEq, Repr

/-- A recorded exception (Tables 4.20, 4.21). -/
structure ExcRec where
  deferred : Bool
  slot : BitVec 3
  status : BitVec 8
  exc : BitVec 8
  bundle : BitVec 16
  addr : Word
deriving DecidableEq, Repr

/-- A span-entry record (Table 5.5). -/
structure SpanRec where
  span : BitVec 32
  next : BitVec 16
  stamp : Word
  s : Map Word
  p : Map (BitVec 128)
  q : Map (BitVec 16)
  /-- CHECK is the complement of bytes 0x000-0x007 (R186) -/
  valid : Bool
deriving DecidableEq, Repr

/-- What the cluster keeps for a logical core outside it (R186, R189, R190): two record slots, the outbound ledger, the
tally. -/
structure CoreStore where
  rec0 : SpanRec
  rec1 : SpanRec
  ledger : BitVec 1024
  tally : Map (BitVec 16)
deriving DecidableEq, Repr

/-- A logical core. -/
structure Core where
  st : CoreSt
  /-- CORE_CSTAT: PC, SPAN and the code of the last exception (Table 3.10) -/
  pc : BitVec 16
  span : BitVec 16
  exc : BitVec 8
  /-- s1 to s31, v0 to v63, t0 to t15, k0 to k7, p1 to p7, q0 to q15 (Table 3.2) -/
  s : Map Word
  v : Map VReg
  t : Map TReg
  k : Map Acc
  p : Map (BitVec 128)
  q : Map (BitVec 16)
  /-- the scale-maximum registers (R152): NAN 9, SEEN 8, MAX [7:0] -/
  sma : BitVec 10
  smb : BitVec 10
  /-- CORE_FLAGS, CORE_FLOOR, CORE_BEATLIM, CORE_BEATCNT, CORE_RATE, CORE_CODE (Tables 3.11 to 3.16) -/
  flags : Word
  floor : Word
  beatLim : Word
  beatCnt : Word
  rate : Word
  code : Word
  /-- CORE_FAULT and CORE_FAULTADDR (Tables 4.20, 4.21) -/
  faultReg : Word
  faultAddr : Word
  /-- operations in flight, in program order, and the next number -/
  flights : List Flight
  nextId : Nat
  /-- a deferred exception detected and not yet entered (R168) -/
  pend : Option ExcRec
  /-- the next bundle to issue is the first of a span (R132 to R134) -/
  atEntry : Bool
  /-- span index in full, whether the core is at its launch barrier, STOP of the barrier reached (R136, R178) -/
  spanIdx : Nat
  atLaunch : Bool
  stop : Bool
  /-- NEXT of the barrier reached -/
  next : BitVec 16
  /-- outbound operations, and SEND, GET and MSEND operations, issued in this span (R189, R284) -/
  outCount : Nat
  sendCount : Nat
  /-- the span issued an outbound operation numbered 1,024 or more (R189) -/
  unreplayable : Bool
  /-- the core is a spare replaying the span (R192, R193); its arrival carries REPLAYED -/
  replaying : Bool
  /-- LIMIT was below FLOOR at some moment of the span (THROTTLED of R174) -/
  throttled : Bool
  /-- fenced for failure, not for stop (R453, R455) -/
  failFence : Bool
  /-- the core wait limit has acted in this span (R183) -/
  limitUsed : Bool
  /-- the beat limiter: beats passed in this interval, the LIMIT in force, the tick at which the interval began (R105) -/
  limBeats : Nat
  limInForce : BitVec 12
  limAt : Word
  /-- BEATCNT and the tick at the start of the measured interval, and whether the core was in RUN or BARRIER throughout
  (R108) -/
  measBase : Word
  measAt : Word
  measOk : Bool
  /-- an interval has been measured since LAUNCH (R406) -/
  rated : Bool
  /-- beats for which a WAIT has held the bundle at issue (R196) -/
  waitBeats : Nat
  /-- pipes running load fill, and the amount the governor placed, in sixteenths (Load fill, R402, R403) -/
  fill : Bool
  fillAmt : Nat
  /-- the launch the core runs: its ring and index; its schedule-group slot; its context -/
  launch : Option (Nat × BitVec 32)
  group : Nat
  ctx : Nat
  /-- the FTC tick at which the core entered FAULT (R185) -/
  faultAt : Word
deriving DecidableEq, Repr

end Sys2Proof.Machine
end

