-- ==== Sys2Proof/Machine/Keystone.lean ====
section
/-! DEFINITION. The Keystone path and the float path (Number formats and Keystone accumulation, R51 to R75): what a
multiply adds to an accumulator element, KS64 codes, output rounding, and the float tree. -/

namespace Sys2Proof.Machine

/-! ## Keystone accumulation -/

/-- What a list of contributions adds to an element: the sum of the rounded products and the flags they set. It is kept
apart from the element, so that it depends only on the contributions (R61). -/
structure Delta where
  n : Int
  inv : Bool
  sat : Bool
deriving DecidableEq, Repr

/-- An operand element with its scales; none where the element or a scale is invalid (R58). -/
abbrev Operand := Option Dy

/-- One contribution of R58 and R59 on the grid of anchor `a`: a product, rounded on its own. -/
def keyTerm (a : Int) : Operand → Operand → Delta
  | some x, some y =>
    let p := mulDy x y
    let n := roundMag .rne 0 p (a - 40)
    if 2 ^ 87 ≤ n then ⟨0, false, true⟩ else ⟨if p.neg then -(n : Int) else n, false, false⟩
  | _, _ => ⟨0, true, false⟩

def Delta.add (x y : Delta) : Delta := ⟨x.n + y.n, x.inv || y.inv, x.sat || y.sat⟩

def Delta.zero : Delta := ⟨0, false, false⟩

/-- The sum of the contributions of a row of A and a row of B. -/
def keySum (a : Int) : List Operand → List Operand → Delta
  | x :: xs, y :: ys => (keyTerm a x y).add (keySum a xs ys)
  | _, _ => .zero

/-- Adds a delta to an element (R51, R67). -/
def AccElem.addDelta (e : AccElem) (d : Delta) : AccElem :=
  ⟨e.n + BitVec.ofInt 128 d.n, e.inv || d.inv, e.sat || d.sat⟩

/-- The cleared element (R52). -/
def AccElem.zero : AccElem := ⟨0, false, false⟩

/-- The accumulator register after a clear to float mode (R84). -/
def Acc.zero : Acc := ⟨false, noAnchor, 0, []⟩

/-- Element v = 64 i + j. -/
def Acc.elem (k : Acc) (v : Nat) : AccElem := mget (fun _ => AccElem.zero) k.elems v

/-- The anchor as an integer. -/
def Acc.anchorInt (k : Acc) : Int := k.anchor.toInt

/-- Adds to every element what `d` gives for it, and `chunk` to the count; SAT everywhere past 2^40 (R60). -/
def Acc.addAll (k : Acc) (d : Nat → Delta) (chunk : Nat) : Acc :=
  let count := k.count + chunk
  let force := decide (2 ^ 40 < count)
  { k with
    count := count
    elems := mtab (fun _ => AccElem.zero)
      (fun v => let e := (k.elem v).addDelta (d v); { e with sat := e.sat || force }) 4096 0 }

/-- Whether an operation sets INV or SAT in any element (R62). -/
def anyDelta (p : Delta → Bool) (d : Nat → Delta) : Bool := (List.range 4096).any fun v => p (d v)

/-! ## KS64 (R64 to R67) -/

def ksInv : Word := 0x8000000000000000#64
def ksSatNeg : Word := 0x8000000000000001#64
def ksSatPos : Word := 0x7FFFFFFFFFFFFFFF#64

/-- What a KS64 code adds (R67). -/
def ksDelta (m : Word) : Delta :=
  if m = ksInv then ⟨0, true, false⟩
  else if m = ksSatNeg ∨ m = ksSatPos then ⟨0, false, true⟩
  else ⟨m.toInt, false, false⟩

/-- The code written for an element (R66). -/
def ksCode (e : AccElem) : Word :=
  if e.inv then ksInv
  else if e.sat ∨ 2 ^ 63 - 2 < e.n.toInt.natAbs then (if 0 < e.n.toInt then ksSatPos else ksSatNeg)
  else BitVec.ofInt 64 e.n.toInt

/-- Element v of a block of 8 KS64 tiles: tile v / 512, row (v mod 512) / 8, slot v mod 8. -/
def ksBlockElem (tiles : List TileData) (v : Nat) : Word :=
  BitVec.ofNat 64 (bitsAt (tiles.getD (v / 512) 0) (64 * (v % 512)) 64)

/-! ## Operand rows -/

/-- The scale exponent of block `j` of row `r` in a strip with `b` blocks a row (Tile layouts and format codes). -/
def stripScale (strip : BitVec 2048) (b r j : Nat) : Option Int := e8m0 (bitsAt strip (8 * (r * b + j)) 8)

/-- Element `i` of row `r` of an operand tile with its block scale. -/
def mxOperand (f : EFmt) (t : TileData) (strip : BitVec 2048) (r i : Nat) : Operand :=
  match (decodeElem f (tileElem t f r i)).finite, stripScale strip (elemsPerRow f / 32) r (i / 32) with
  | some d, some k => some (d.scale k)
  | _, _ => none

/-- Element `i` of row `r` of an operand tile with a tensor scale. -/
def plainOperand (f : EFmt) (t : TileData) (scale : Byte) (r i : Nat) : Operand :=
  match (decodeElem f (tileElem t f r i)).finite, e8m0 scale.toNat with
  | some d, some k => some (d.scale k)
  | _, _ => none

/-- How many K values a TMMA takes: 128 for two MXFP4 operands, else 64 (R90, R142). -/
def tmmaK (fa fb : BitVec 3) : Nat := if fa = 0 ∧ fb = 0 then 128 else 64

/-- The row of operands that a TMMA takes from a tile: `o` is its first element, 64 for the high half (R142). -/
def tmmaRow (f : BitVec 3) (other : BitVec 3) (t : TileData) (strip : BitVec 2048) (ts : Byte) (half : Bool) (r : Nat) :
    List Operand :=
  let o := if f = 0 ∧ other ≠ 0 ∧ half then 64 else 0
  (List.range (tmmaK f other)).map fun i =>
    if (kfmt f).2 then mxOperand (kfmt f).1 t strip r (o + i) else plainOperand (kfmt f).1 t ts r (o + i)

/-! ## Output rounding (R69 to R73, R545, R546) -/

/-- The exact value of an element, or none if it is invalid or saturated. -/
def accValue (anchor : Int) (e : AccElem) : Option Dy :=
  if e.inv ∨ e.sat then none else some ⟨decide (e.n.toInt < 0), e.n.toInt.natAbs, anchor - 40⟩

/-- Clears the sign of a zero code (R72). -/
def plusZero (f : EFmt) (c : Nat) : Nat := if c % 2 ^ (f.bits - 1) = 0 ∧ f ≠ .int8 then 0 else c

/-- An element of a format without block scales: its code and whether OVF is set (Table 2.7). -/
def outPlain (f : EFmt) (rm : Rm) (r : Nat) : Option Dy → Nat × Bool
  | none => (invalidCode f, false)
  | some d => roundTo f rm r d

/-- The scale code of a block (R73): `vals` are its 32 exact values. -/
def mxScale (f : EFmt) (vals : List (Option Dy)) : Nat :=
  if vals.any Option.isNone then 255
  else
    let tops := vals.filterMap fun v => match v with
      | some d => if d.m = 0 then none else some ((Nat.log2 d.m : Int) + d.e)
      | none => none
    match tops with
    | [] => 0
    | t :: r =>
      let u := r.foldl max t - f.emax + 127
      if u < 0 then 0 else if 254 < u then 254 else u.natAbs

/-- An element of a block with scale code `u`. -/
def outMx (f : EFmt) (rm : Rm) (r u : Nat) : Option Dy → Nat × Bool
  | none => (0, false)
  | some d => if u = 255 then (0, false) else roundTo f rm r (d.scale (127 - (u : Int)))

/-! ## The float path (R74, R75) -/

/-- The one NaN of the float path. -/
def floatNan : Nat := 0x7FC00000

def f32 (c : Nat) : Val := decodeElem .fp32 c

/-- A binary32 addition with RNE. -/
def fadd (a b : Nat) : Nat := (packVal .fp32 .rne (addVal .rne (f32 a) (f32 b))).getD floatNan

/-- A product of two elements rounded once to binary32 with RNE. -/
def fmul (f : EFmt) (a b : Nat) : Nat :=
  (packVal .fp32 .rne (mulVal (decodeElem f a) (decodeElem f b))).getD floatNan

/-- One level of the fixed tree: neighbours are added in index order. -/
def treeLevel : List Nat → List Nat
  | a :: b :: r => fadd a b :: treeLevel r
  | l => l

/-- The balanced tree of `n` levels. -/
def tree : Nat → List Nat → List Nat
  | 0, l => l
  | n + 1, l => tree n (treeLevel l)

/-- The tree's result on 32 or 16 products. -/
def treeSum (l : List Nat) : Nat := (tree 5 l).headD 0

/-- The new binary32 value of a float accumulator element after one chunk. -/
def floatStep (f : EFmt) (ta tb : TileData) (i j acc : Nat) : Nat :=
  fadd acc (treeSum ((List.range (elemsPerRow f)).map fun k => fmul f (tileElem ta f i k) (tileElem tb f j k)))

/-- A float tile after TFMA; bits [127:32] of every element stay zero. A float tile counts nothing (R60). -/
def Acc.floatMul (k : Acc) (f : EFmt) (ta tb : TileData) : Acc :=
  { k with
    elems := mtab (fun _ => AccElem.zero)
      (fun v => { AccElem.zero with
        n := BitVec.ofNat 128 (floatStep f ta tb (v / 64) (v % 64) ((k.elem v).n.toNat % 2 ^ 32)) }) 4096 0 }

/-- The binary32 value of a float accumulator element. -/
def floatValue (e : AccElem) : Nat := e.n.toNat % 2 ^ 32

end Sys2Proof.Machine
end

