-- ==== Sys2Proof/Machine/Check.lean ====
section
/-! DEFINITION. Tile Check Records (Memory levels and tile checking, R212 to R217, R226, R230; R245): row codes, seeds,
the address term, the tile sum and the classification of a tile. -/

namespace Sys2Proof.Machine

/-- One bit of crc14 (R213): the reflected register shifts right. -/
def crc14Shift (c : BitVec 14) : BitVec 14 := if c.getLsbD 0 then (c >>> 1) ^^^ 0x2805#14 else c >>> 1

/-- One byte of crc14; bit 0 of the byte enters first. -/
def crc14Byte (c : BitVec 14) (b : Byte) : BitVec 14 := Nat.repeat crc14Shift 8 (c ^^^ b.setWidth 14)

/-- crc14 of a row, from byte 0 (R213). -/
def crc14 (row : Row) : BitVec 14 := (bytesOf 512 row 64).foldl crc14Byte 0

/-- seed(g, r) (R213). -/
def seed (g : BitVec 32) (r : Nat) : BitVec 14 := BitVec.ofNat 14 (g.toNat + 181 * r)

/-- The row code of row `r` under generation `g`. -/
def rowCode (g : BitVec 32) (r : Nat) (row : Row) : BitVec 14 := crc14 row ^^^ seed g r

/-- The address term of R214 for the tile at physical address `x`. -/
def addrTerm (x r : Nat) : BitVec 14 := (mix (BitVec.ofNat 64 (x ||| r))).setWidth 14

/-- Row code `r` of a code field. -/
def codeAt (code : BitVec 896) (r : Nat) : BitVec 14 := (code >>> (14 * r)).setWidth 14

/-- A code field from its 64 row codes. -/
def codesOf (f : Nat → BitVec 14) : BitVec 896 :=
  BitVec.ofNat 896 (packNat 14 ((List.range 64).map fun r => (f r).toNat))

/-- A code field with row code `r` replaced. -/
def setCode (code : BitVec 896) (r : Nat) (c : BitVec 14) : BitVec 896 :=
  code ^^^ (((codeAt code r ^^^ c).setWidth 896) <<< (14 * r))

/-- Adds or removes the address term of every row code (R214). -/
def termed (x : Nat) (code : BitVec 896) : BitVec 896 := codesOf fun r => codeAt code r ^^^ addrTerm x r

/-- One byte of CRC-32C, reflected (R216). -/
def crc32cByte (c : BitVec 32) (b : Byte) : BitVec 32 :=
  Nat.repeat (fun c => if c.getLsbD 0 then (c >>> 1) ^^^ 0x82F63B78#32 else c >>> 1) 8 (c ^^^ b.setWidth 32)

/-- CRC-32C of a string of bytes: initial value and final XOR 0xFFFF_FFFF. -/
def crc32c (l : List Byte) : BitVec 32 := l.foldl crc32cByte 0xFFFFFFFF#32 ^^^ 0xFFFFFFFF#32

/-- Bytes 116 to 127 of a record. -/
def headBytes (r : TileRec) : List Byte :=
  bytesOf 32 r.gen 4 ++ [r.fmt, r.flags] ++ bytesOf 24 r.owner 3 ++ bytesOf 16 r.anchor 2 ++ [0]

/-- The tile sum of a record (R216), over its codes without address term. -/
def sumOf (r : TileRec) : BitVec 32 := crc32c (bytesOf 896 r.code 112 ++ headBytes r)

/-- The record with a fresh SUM. -/
def summed (r : TileRec) : TileRec := { r with sum := sumOf r }

/-- The 128 bytes of a record (Table 6.3). -/
def recBytes (r : TileRec) : List Byte := bytesOf 896 r.code 112 ++ bytesOf 32 r.sum 4 ++ headBytes r

/-- POISON, bit 0 of FLAGS. -/
def recPoison (r : TileRec) : Bool := r.flags.getLsbD 0

def withPoison (r : TileRec) : TileRec := { r with flags := r.flags ||| 1 }

/-- POISON is set where a header is written from a record whose SUM fails (R217). -/
def vetted (r : TileRec) : TileRec := if sumOf r = r.sum then r else withPoison r

/-- A record that a producer makes for a tile (R218, R225). -/
def freshRec (data : TileData) (gen : BitVec 32) (fmt flags : BitVec 8) (owner : BitVec 24) (anchor : BitVec 16) : TileRec :=
  summed ⟨codesOf fun r => rowCode gen r (tileRow data r), 0, gen, fmt, flags, owner, anchor⟩

/-- The SUM of the record of R230. -/
def zeroSum : BitVec 32 := 0x535996F6#32

/-- The record of an initialised tile (R230), without address term: every row code is seed(0, r). -/
def zeroRec : TileRec := ⟨codesOf fun r => seed 0 r, zeroSum, 0, fmtUntyped, 0, 0, noAnchor⟩

/-- The record at rest of an initialised tile outside core-local memory, with its address term. -/
def restRec (tile : Nat) : TileRec := { zeroRec with code := termed (tile * 4096) zeroRec.code }

/-- What a check finds (R226). -/
inductive Class where
  | good
  | torn
  /-- the row: 0 to 63, 64 ROW_RECORD, 65 ROW_POISON (Table 6.13) -/
  | corrupt (row : Nat)
deriving DecidableEq, Repr

/-- The rows of a check in ascending order: whether one passed only under the previous generation, or the lowest row
that passes under neither. -/
def classRows (data : TileData) (rec : TileRec) : List Nat → Bool → Class
  | [], torn => if torn then .torn else .good
  | r :: rest, torn =>
    let c := crc14 (tileRow data r)
    if c ^^^ seed rec.gen r = codeAt rec.code r then classRows data rec rest torn
    else if c ^^^ seed (rec.gen - 1) r = codeAt rec.code r then classRows data rec rest true
    else .corrupt r

/-- The classification of R226; `whole` for a whole-tile access. -/
def classify (data : TileData) (rec : TileRec) (rows : List Nat) (whole : Bool) : Class :=
  if recPoison rec then .corrupt 65
  else match classRows data rec rows false with
    | .good => if whole && decide (sumOf rec ≠ rec.sum) then .corrupt 64 else .good
    | c => c

/-- A whole-tile check. -/
def classifyTile (t : TileImg) : Class := classify t.data t.tcr (List.range 64) true

/-- CORRUPT_TILE wins over TORN_TILE across the tiles of one instruction (R113). -/
def worse : Class → Class → Class
  | .corrupt r, _ => .corrupt r
  | _, .corrupt r => .corrupt r
  | .torn, _ => .torn
  | _, c => c

end Sys2Proof.Machine
end

