-- ==== Sys2Proof/Machine/StMem.lean ====
section
/-! DEFINITION. The state of the memories, their points of coherence, and the partition blocks MEM, HBM, TCK and RST
(Memory levels and tile checking; Memory ordering and visibility; Reset, recovery and redundancy). -/

namespace Sys2Proof.Machine

/-- Who asked for an access, and so where its end is reported. -/
inductive Requester where
  /-- a tile of a mover operation of a core (index 0 to 383); `loc` is the local address that a read fills, `addr` the
  context or fabric address of the access -/
  | mover (core : Nat) (id : Nat) (loc : Option Nat) (addr : Word)
  /-- the notification of a SEND or MSEND (R158): its core, bundle and fabric address -/
  | note (core : Nat) (bundle : BitVec 16) (addr : Word)
  /-- a STREL, an LDVOL or an LDACQ of a core -/
  | strel (core : Nat) (id : Nat)
  | load (core : Nat) (id : Nat)
  /-- a tile of a started command -/
  | command (ring : Nat) (idx : BitVec 32)
  /-- a request packet that arrived on a port (36 and above: no port) and awaits its response -/
  | packet (port : Nat) (pkt : Packet)
  /-- the completion record of a command whose message is sent once it is visible (R368) -/
  | record (port : Fin 2) (fn : PcieFn) (vector : Nat)
  /-- no one waits: a posted write, an OPEN or a CLOSE -/
  | posted
  /-- no one waits: a write by a PCIe function through a BAR, which its later doorbells and reads follow (R258) -/
  | bar (port : Fin 2) (fn : PcieFn)
  /-- a notice to the fabric manager (R461) -/
  | notice (seq : BitVec 16)
  /-- a packet or a result of the collective of a command -/
  | coll (ring : Nat) (idx : BitVec 32) (kind : Nat) (key : Nat)
  /-- the scrubber of a partition; `again` at the end of the pass (R228) -/
  | scrub (p : Fin 4) (tile : Nat) (again : Bool)
  /-- a tile that is read to be written on: to physical address `dst` (`early`: its write is visible at the scope of its
  operation once it has left that scope, R241), or to a fabric address in a WRITE_TILE packet -/
  | relay (target : Requester) (dst : Nat) (early : Bool)
  | relayOut (target : Requester) (pkt : Packet) (dom ctx : Nat)
deriving DecidableEq, Repr

/-- A change of one row: the bits written and their new value. -/
structure RowChange where
  row : Nat
  mask : Row
  val : Row
deriving DecidableEq, Repr

/-- An operation on one tile at its point of coherence (R220, R222). -/
inductive PocKind where
  /-- a whole-tile write: its incoming tile and record; once open, its generation; the rows stored so far -/
  | whole (img : TileImg) (gen : BitVec 32) (landed : BitVec 64)
  /-- a partial write -/
  | part (rows : List RowChange) (landed : BitVec 64)
  /-- a read of the whole tile; the rows and codes served once it has read them -/
  | read (got : Option (TileData × BitVec 896))
  /-- an 8-byte read at a byte offset of the tile -/
  | read8 (off : Nat)
deriving DecidableEq, Repr

/-- An operation that has arrived at a point of coherence, in arrival order. `dom` is the issuing domain's number
for CUT (R223). -/
structure PocOp where
  id : Nat
  tile : Nat
  dom : Nat
  opened : Bool
  kind : PocKind
  who : Requester
deriving DecidableEq, Repr

/-- A translation-cache entry (R209): context, page base of the context address, 1 GiB page, and the leaf entry. -/
structure TlbEntry where
  ctx : Nat
  page : Nat
  big : Bool
  entry : Word
deriving DecidableEq, Repr

/-- A reset in progress (R446). Steps as in RST_STAT: 1 FENCE, 2 DUMP, 3 DRAIN, 4 CUT, 5 GEN, 6 RESET, 7 RESTORE. -/
structure ResetJob where
  dom : Domain
  step : Nat
  /-- a partition reset with HOLD; the hold is reached (R449) -/
  hold : Bool
  held : Bool
  dump : Bool
  /-- `now` at FENCE, and the time of DUMP, which the budget excludes -/
  start : Nat
  dumpTime : Nat
  /-- fenced for failure (core only, R453) -/
  fail : Bool
deriving DecidableEq, Repr

/-- The units of one partition, beside its registers. -/
structure Part where
  /-- the translation cache (R209) -/
  tlb : List TlbEntry
  /-- what is taken away of the admission of each stack, in parts of 2^24 (R407) -/
  hbmCut : Map Nat
  /-- tiles classified TORN_TILE in this pass, to be read again at its end (R228) -/
  scrubTorn : List Nat
  /-- the die-to-die links that are down (south is true), and channels out of service by link (R26) -/
  linkDown : List Bool
  chanOut : Map (BitVec 16)
  /-- VCORE or VMEM is lost (Table 11.1) -/
  railLost : Bool
  /-- fenced until a reset of the package: by a rail, an isolation or a shutdown (R387, R409, R414) -/
  fenced : Bool
deriving DecidableEq, Repr

/-- The memories. `pkg` is the package physical space but for core-local memory; `loc` is core-local memory by
physical core: byte a of physical core x is at x * 2 MiB + a. An unlisted byte reads 0 (R230). `rec` and `locRec`
are the Tile Check Records by tile; at rest outside core-local memory a code carries its address term (R214). -/
structure Mem where
  pkg : List Host.Cell
  loc : List Host.Cell
  tcr : Map TileRec
  locTcr : Map TileRec
  ops : List PocOp
  nextOp : Nat
deriving DecidableEq, Repr

end Sys2Proof.Machine
end

