-- ==== Sys2Proof/Machine/Memory.lean ====
section
/-! DEFINITION. The package physical address map (Package organization, Table 1.5, R28 to R31) and the memories: bytes,
tiles and Tile Check Records (Memory levels and tile checking). -/

namespace Sys2Proof.Machine

/-! ## Numbers of units -/

/-- The index of a logical core, 0 to 383. -/
def coreIdx (c : CoreAddr) : Nat := c.p.val * 96 + c.c.val * 8 + c.k.val

/-- The packed form of Table 1.2. -/
def packCore (c : CoreAddr) : BitVec 9 := BitVec.ofNat 9 (c.p.val * 128 + c.c.val * 8 + c.k.val)

/-- The core that a packed address names; none for C = 12 to 15 (R16). -/
def unpackCore (a : BitVec 9) : Option CoreAddr :=
  let n := a.toNat
  if h : n % 128 / 8 < 12 then
    some ⟨⟨n / 128, by have := a.isLt; omega⟩, ⟨n % 128 / 8, h⟩, ⟨n % 8, by omega⟩⟩
  else none

/-- The core of an index. -/
def coreOfIdx (n : Nat) : CoreAddr :=
  ⟨⟨n / 96 % 4, by omega⟩, ⟨n % 96 / 8, by omega⟩, ⟨n % 8, by omega⟩⟩

/-- The index of a cluster, 0 to 47. -/
def clusterIdx (p : Fin 4) (c : Fin 12) : Nat := p.val * 12 + c.val

def allParts : List (Fin 4) := [0, 1, 2, 3]

def allClusters : List (Fin 12) := [0, 1, 2, 3, 4, 5, 6, 7, 8, 9, 10, 11]

/-- The logical cores of a cluster, and of a partition, ascending. -/
def coresIn (p : Fin 4) (c : Fin 12) : List CoreAddr :=
  [⟨p, c, 0⟩, ⟨p, c, 1⟩, ⟨p, c, 2⟩, ⟨p, c, 3⟩, ⟨p, c, 4⟩, ⟨p, c, 5⟩, ⟨p, c, 6⟩, ⟨p, c, 7⟩]

def coresOf (p : Fin 4) : List CoreAddr := allClusters.flatMap (coresIn p)

def allCores : List CoreAddr := allParts.flatMap coresOf

/-! ## The physical address map -/

/-- What a package physical address is in (Table 1.5, R28). -/
inductive Place where
  /-- the tile area of an HBM stack -/
  | hbm (p : Fin 4) (s : Nat)
  /-- a check area, with the offset in its stack -/
  | check (p : Fin 4) (s : Nat) (off : Nat)
  | reservoir (p : Fin 4)
  | cluster (p : Fin 4) (c : Nat)
  | coreLocal (core : CoreAddr) (off : Nat)
  | control (off : Nat)
  | host (port : Fin 2) (off : Nat)
  | reserved
deriving DecidableEq, Repr

/-- Size of a stack's tile area (Package organization). -/
def tileArea : Nat := 0xF83E00000

/-- The place of a physical address. -/
def placeOf (pa : Nat) : Place :=
  if pa < 0x20000000000 then
    let p : Fin 4 := ⟨pa / 0x8000000000 % 4, by omega⟩
    let s := pa % 0x8000000000 / 0x1000000000
    let off := pa % 0x1000000000
    if 6 ≤ s then .reserved else if off < tileArea then .hbm p s else .check p s off
  else if pa < 0x20200000000 then .reservoir ⟨(pa - 0x20000000000) / 0x80000000 % 4, by omega⟩
  else if 0x21000000000 ≤ pa ∧ pa < 0x21040000000 then
    let o := pa - 0x21000000000
    let c := o % 0x10000000 / 0x1000000
    if c < 12 then .cluster ⟨o / 0x10000000 % 4, by omega⟩ c else .reserved
  else if 0x22000000000 ≤ pa ∧ pa < 0x22040000000 then
    let o := pa - 0x22000000000
    let c := o % 0x10000000 / 0x1000000
    let k := o % 0x1000000 / 0x200000
    if h : c < 12 then
      .coreLocal ⟨⟨o / 0x10000000 % 4, by omega⟩, ⟨c, h⟩, ⟨k, by omega⟩⟩ (o % 0x200000)
    else .reserved
  else if 0x30000000000 ≤ pa ∧ pa < 0x30010000000 then .control (pa - 0x30000000000)
  else if 0x40000000000 ≤ pa ∧ pa < 0x60000000000 then .host 0 (pa - 0x40000000000)
  else if 0x60000000000 ≤ pa ∧ pa < 0x80000000000 then .host 1 (pa - 0x60000000000)
  else .reserved

/-- Physical base of a core's local memory (Table 1.5). -/
def localBase (c : CoreAddr) : Nat := 0x22000000000 + c.p.val * 0x10000000 + c.c.val * 0x1000000 + c.k.val * 0x200000

/-- A place with a point of coherence outside the cores: HBM tile area, reservoir or cluster memory. -/
def Place.stored : Place → Bool
  | .hbm _ _ | .reservoir _ | .cluster _ _ => true
  | _ => false

/-- A place that a page of a context may map (R28). -/
def Place.mappable : Place → Bool
  | .hbm _ _ | .reservoir _ | .cluster _ _ | .coreLocal _ _ | .host _ _ => true
  | _ => false

/-- A place where a page table may lie (R208). -/
def Place.tableArea : Place → Bool
  | .hbm _ _ | .reservoir _ => true
  | _ => false

/-- The partition whose memory a place is. -/
def Place.partition : Place → Option (Fin 4)
  | .hbm p _ | .check p _ _ | .reservoir p | .cluster p _ => some p
  | .coreLocal c _ => some c.p
  | _ => none

/-- LEVEL of TCK_FLOG_B (Table 6.14). -/
def Place.level : Place → Nat
  | .coreLocal _ _ => 0 | .cluster _ _ => 1 | .reservoir _ => 2 | _ => 3

/-- Every 4 KiB of the `n` bytes at `pa` satisfies `f`. Places change only at multiples of 2 MiB, so the first byte of
each 2 MiB stands for it. -/
def everyPlace (f : Place → Bool) (pa n : Nat) : Bool :=
  (List.range ((pa % 0x200000 + n + 0x1FFFFF) / 0x200000)).all fun i => f (placeOf ((pa / 0x200000 + i) * 0x200000))

/-! ## Bytes -/

/-- What an unlisted byte of memory reads as: zero, the data of an initialised tile (R230). -/
def memDefault : Nat → Byte := fun _ => 0

/-- One byte of package memory outside core-local memory. -/
def Mem.byte (m : Mem) (a : Nat) : Byte := mget memDefault m.pkg a

def Mem.bytes (m : Mem) (a n : Nat) : List Byte := mslice memDefault m.pkg a n

/-- The canonical form of a memory: addresses strictly rising, no entry that reads as an unlisted byte does. -/
def Memory.wf (l : List Host.Cell) : Bool := mwf memDefault l

/-- `n` bytes at `a`, as a little-endian number. -/
def Mem.num (m : Mem) (a n : Nat) : Nat := packNat 8 ((m.bytes a n).map BitVec.toNat)

/-- Stores `n` bytes of `v` at `a`. -/
def Mem.store (m : Mem) (a n : Nat) (v : Nat) : Mem :=
  { m with pkg := mfill memDefault m.pkg a n fun k => BitVec.ofNat 8 (v >>> (8 * (k - a))) }

/-- One byte of core-local memory; `x` is the physical core, 0 to 431. -/
def localKey (x a : Nat) : Nat := x * 0x200000 + a

def Mem.localByte (m : Mem) (x a : Nat) : Byte := mget memDefault m.loc (localKey x a)

def Mem.localNum (m : Mem) (x a n : Nat) : Nat :=
  packNat 8 ((mslice memDefault m.loc (localKey x a) n).map BitVec.toNat)

def Mem.localStore (m : Mem) (x a n : Nat) (v : Nat) : Mem :=
  { m with loc := mfill memDefault m.loc (localKey x a) n fun k => BitVec.ofNat 8 (v >>> (8 * (k - localKey x a))) }

/-! ## Records and whole tiles. A stored record outside core-local memory carries the address term (R214). -/

def Mem.recAt (m : Mem) (tile : Nat) : TileRec := mget restRec m.tcr tile

def Mem.setRec (m : Mem) (tile : Nat) (r : TileRec) : Mem := { m with tcr := mput restRec m.tcr tile r }

def localTile (x slot : Nat) : Nat := x * 512 + slot

def Mem.localRec (m : Mem) (x slot : Nat) : TileRec := mget (fun _ => zeroRec) m.locTcr (localTile x slot)

def Mem.setLocalRec (m : Mem) (x slot : Nat) (r : TileRec) : Mem :=
  { m with locTcr := mput (fun _ => zeroRec) m.locTcr (localTile x slot) r }

def Mem.tileData (m : Mem) (tile : Nat) : TileData := BitVec.ofNat 32768 (m.num (tile * 4096) 4096)

def Mem.row (m : Mem) (tile r : Nat) : Row := BitVec.ofNat 512 (m.num (tile * 4096 + 64 * r) 64)

def Mem.localData (m : Mem) (x slot : Nat) : TileData := BitVec.ofNat 32768 (m.localNum x (slot * 4096) 4096)

def Mem.localRow (m : Mem) (x slot r : Nat) : Row := BitVec.ofNat 512 (m.localNum x (slot * 4096 + 64 * r) 64)

/-- A tile of core-local memory with its record. -/
def Mem.localTileImg (m : Mem) (x slot : Nat) : TileImg := ⟨m.localData x slot, m.localRec x slot⟩

/-- A row access at a point of coherence: row `r` and its code, without the address term (R214, R221). -/
def Mem.rowCodeAt (m : Mem) (tile r : Nat) : BitVec 14 :=
  codeAt (m.recAt tile).code r ^^^ addrTerm (tile * 4096) r

/-- Stores row `r` and its code as one access, adding the address term (R214, R221). -/
def Mem.storeRow (m : Mem) (tile r : Nat) (row : Row) (code : BitVec 14) : Mem :=
  let rec' := m.recAt tile
  (m.store (tile * 4096 + 64 * r) 64 row.toNat).setRec tile
    { rec' with code := setCode rec'.code r (code ^^^ addrTerm (tile * 4096) r) }

/-- The stored record's SUM passes (R217); SUM is computed without the address term (R216). -/
def Mem.sumOk (m : Mem) (tile : Nat) : Bool :=
  let r := m.recAt tile
  decide (sumOf { r with code := termed (tile * 4096) r.code } = r.sum)

/-- The record of a tile without its address term. -/
def Mem.plainRec (m : Mem) (tile : Nat) : TileRec :=
  let r := m.recAt tile
  { r with code := termed (tile * 4096) r.code }

/-- Stores a record given without address term. -/
def Mem.setPlainRec (m : Mem) (tile : Nat) (r : TileRec) : Mem :=
  m.setRec tile { r with code := termed (tile * 4096) r.code }

/-- A whole tile as a read with nothing open on it serves it: the header with a fresh SUM, POISON where the stored SUM
fails (R222, R245). -/
def Mem.serve (m : Mem) (tile : Nat) : TileImg :=
  ⟨m.tileData tile, summed (vetted (m.plainRec tile))⟩

/-! ## Writes of core-local memory -/

/-- A mover write of a slot: the tile and the record it carries (R110, R218). -/
def Mem.localPut (m : Mem) (x slot : Nat) (t : TileImg) : Mem :=
  (m.localStore x (slot * 4096) 4096 t.data.toNat).setLocalRec x slot t.tcr

/-- A whole-tile write by the tile-check unit: GEN is the slot's previous GEN + 1, FLAGS are cleared (R218). -/
def Mem.localWhole (m : Mem) (x slot : Nat) (data : TileData) (fmt : BitVec 8) (anchor : BitVec 16) (owner : BitVec 24) :
    Mem :=
  m.localPut x slot ⟨data, freshRec data ((m.localRec x slot).gen + 1) fmt 0 owner anchor⟩

/-- A partial write by the tile-check unit of the `n` bytes at `a`, within one tile: each row's code is corrected by the
difference, and SUM is rewritten under R217 (R111, R219). -/
def Mem.localPart (m : Mem) (x a n : Nat) (v : Nat) : Mem :=
  let slot := a / 4096
  let m' := m.localStore x a n v
  let old := m.localRec x slot
  let code := codesOf fun r => codeAt old.code r ^^^ crc14 (m.localRow x slot r ^^^ m'.localRow x slot r)
  m'.setLocalRec x slot (summed { vetted old with code := code })

/-! ## Writes at a point of coherence whose every access falls in one step of the model -/

/-- A whole-tile write that opens and closes with no other operation on the tile (R220). -/
def Mem.pocWhole (m : Mem) (tile : Nat) (t : TileImg) : Mem :=
  let g := (m.recAt tile).gen + 1
  let inc := vetted t.tcr
  let code := codesOf fun r => codeAt t.tcr.code r ^^^ seed t.tcr.gen r ^^^ seed g r
  (m.store (tile * 4096) 4096 t.data.toNat).setPlainRec tile (summed { inc with code := code, gen := g })

/-- One row of a partial write: the code is corrected by the crc14 of the difference (R219, R222). -/
def Mem.partRow (m : Mem) (tile : Nat) (c : RowChange) : Mem :=
  let old := m.row tile c.row
  let new := (old &&& ~~~c.mask) ||| (c.val &&& c.mask)
  m.storeRow tile c.row new (m.rowCodeAt tile c.row ^^^ crc14 (old ^^^ new))

/-- A partial write: its rows, then its rewrite of SUM under R217 (R219, R222). -/
def Mem.pocPart (m : Mem) (tile : Nat) (rows : List RowChange) : Mem :=
  let ok := m.sumOk tile
  let m' := rows.foldl (fun m c => m.partRow tile c) m
  let r := m'.plainRec tile
  m'.setPlainRec tile (summed (if ok then r else withPoison r))

/-- The rows that `n` bytes of `v` at byte `off` of a tile change. -/
def rowChanges (off n v : Nat) : List RowChange :=
  (List.range 64).filterMap fun r =>
    let lo := 64 * r
    if lo + 64 ≤ off ∨ off + n ≤ lo then none
    else
      let mask := (((2 ^ (8 * n) - 1) <<< (8 * off)) >>> (8 * lo)) % 2 ^ 512
      some ⟨r, BitVec.ofNat 512 mask, BitVec.ofNat 512 (((v % 2 ^ (8 * n)) <<< (8 * off)) >>> (8 * lo))⟩

end Sys2Proof.Machine
end

