-- ==== Sys2Proof/Machine/Regs.lean ====
section
/-! DEFINITION. The control-space registers: the address of each, which of its bits software may write, which it clears
by writing 1, which are sticky, and its reset value. An address is a control-space address (Table 0.4, Table 1.9); an
instance lies at the block's base plus its instance offset. -/

namespace Sys2Proof.Machine

/-! ## Addresses -/

/-- Instance of a partition block. -/
def atPart (base : Nat) (p : Fin 4) (off : Nat) : Nat := base + p.val * 0x400000 + off

/-- Instance of an I/O-die block. -/
def atDie (base : Nat) (d : Fin 2) (off : Nat) : Nat := base + d.val * 0x800000 + off

/-! MGT (Tables 12.9, 13.12, 15.9) -/
def rMgtBoot : Nat := 0x100
def rMgtLc : Nat := 0x108
def rMgtLic : Nat := 0x110
def rMgtCfgStat : Nat := 0x118
def rMgtStageCtl : Nat := 0x120
def rMgtRst : Nat := 0x200
def rMgtPeerFail : Nat := 0x208
def rMgtPair : Nat := 0x210
def rMgtPairCnt : Nat := 0x218
def rMgtDumpCfg : Nat := 0x220
def rMgtDumpStat : Nat := 0x228
def rMgtEvtPtr : Nat := 0x230
def rMgtGenCtx (n : Nat) : Nat := 0x300 + n * 8
def rMgtEvt (n : Nat) : Nat := 0x400 + n * 16
def rMgtEvtT (n : Nat) : Nat := 0x408 + n * 16
def rMgtUpdCtl : Nat := 0x800
def rMgtUpdSrc : Nat := 0x808
def rMgtUpdRpt : Nat := 0x810
def rMgtUpdAt : Nat := 0x818
def rMgtUpdStat : Nat := 0x820
def rMgtUpdRel : Nat := 0x828
def rMgtUpdCfg : Nat := 0x830
def rMgtStage (i : Nat) : Nat := 0x10000 + i * 8
def rMgtInv (i : Nat) : Nat := 0x14000 + i * 8

/-! PWR and THM (Tables 11.6, 11.15) -/
def rPwrEnvLim : Nat := 0x1000000
def rPwrEnvRamp : Nat := 0x1000008
def rPwrEnvHoist : Nat := 0x1000010
def rPwrEnvHoistAt : Nat := 0x1000018
def rPwrEnvCtl : Nat := 0x1000020
def rPwrStat : Nat := 0x1000028
def rPwrAlert : Nat := 0x1000030
def rPwrAlertMask : Nat := 0x1000038
def rPwrHb : Nat := 0x1000040
def rPwrRail (n : Nat) : Nat := 0x1000100 + n * 8
def rThmStat : Nat := 0x2000000
def rThmCfg : Nat := 0x2000008
def rThmCool : Nat := 0x2000010
def rThmLeak : Nat := 0x2000018
def rThmTrip : Nat := 0x2000020
def rThmSens (n : Nat) : Nat := 0x2001000 + n * 8

/-! OBS, TRC, BST (Table 14.7) -/
def rObsFtc : Nat := 0x3000000
def rObsFtcSet : Nat := 0x3000008
def rObsSync : Nat := 0x3000010
def rObsPtc : Nat := 0x3000018
def rObsLatch : Nat := 0x3000020
def rObsLatchT : Nat := 0x3000028
def rObsLogCfg : Nat := 0x3000030
def rObsLogPtr : Nat := 0x3000038
def rObsCnt (i : Nat) : Nat := 0x3001000 + i * 8
def rTrcCtl : Nat := 0x4000000
def rTrcBuf (p : Nat) : Nat := 0x4000100 + p * 8
def rTrcPtr (c : Nat) : Nat := 0x4000200 + c * 8
def rBstSched : Nat := 0x6000000
def rBstStat : Nat := 0x6000008
def rBstLast : Nat := 0x6000010
def rBstLastCov : Nat := 0x6000018

/-! RST (Table 13.10) -/
def rRstCtl (p : Fin 4) : Nat := atPart 0x5000000 p 0
def rRstStat (p : Fin 4) : Nat := atPart 0x5000000 p 8
def rRstGen (p : Fin 4) : Nat := atPart 0x5000000 p 0x10
def rRstWfd (p : Fin 4) : Nat := atPart 0x5000000 p 0x18
def rRstWfdMem (p : Fin 4) (n : Nat) : Nat := atPart 0x5000000 p (0x100 + n * 8)
def rRstCgen (p : Fin 4) (i : Nat) : Nat := atPart 0x5000000 p (0x1000 + i * 8)

/-! HST and CTL (Tables 1.7, 1.8, 5.6, 10.11) -/
def rHstPcie (d : Fin 2) : Nat := atDie 0x7000000 d 0
def rHstHerr (d : Fin 2) : Nat := atDie 0x7000000 d 8
def rHstAper (d : Fin 2) : Nat := atDie 0x7000000 d 0x10
def rHstEth (d : Fin 2) : Nat := atDie 0x7000000 d 0x100
def rRingCfg (r : Nat) : Nat := 0x8000000 + r * 0x20
def rRingIdx (r : Nat) : Nat := 0x8000008 + r * 0x20
def rCqCfg (r : Nat) : Nat := 0x8000010 + r * 0x20
def rRingDb (r : Nat) : Nat := 0x8000018 + r * 0x20
def rCtxQuota (n : Nat) : Nat := 0x8001000 + n * 0x20
def rCtxUse (n : Nat) : Nat := 0x8001008 + n * 0x20
def rCtxStat (n : Nat) : Nat := 0x8001010 + n * 0x20
def rEpwBase (n : Nat) : Nat := 0x8010000 + n * 0x10
def rEpwAttr (n : Nat) : Nat := 0x8010008 + n * 0x10
def rSgCfg (g : Nat) : Nat := 0x8020000 + g * 0x40
def rSgStat (g : Nat) : Nat := 0x8020008 + g * 0x40
def rSgSlip (g : Nat) : Nat := 0x8020010 + g * 0x40
def rSgWho (g : Nat) : Nat := 0x8020018 + g * 0x40
def rSgWhat (g : Nat) : Nat := 0x8020020 + g * 0x40

/-! MEM, HBM, TCK (Table 6.6) -/
def rPtRoot (p : Fin 4) (n : Nat) : Nat := atPart 0x9000000 p (n * 8)
def rPtInv (p : Fin 4) : Nat := atPart 0x9000000 p 0x100
def rXlateErr (p : Fin 4) : Nat := atPart 0x9000000 p 0x108
def rHbmStat (p : Fin 4) (s : Nat) : Nat := atPart 0xA000000 p (s * 0x40)
def rHbmEcc (p : Fin 4) (s : Nat) : Nat := atPart 0xA000000 p (8 + s * 0x40)
def rFlogPtr (p : Fin 4) : Nat := atPart 0xB000000 p 0
def rFlogA (p : Fin 4) (n : Nat) : Nat := atPart 0xB000000 p (0x100 + n * 16)
def rFlogB (p : Fin 4) (n : Nat) : Nat := atPart 0xB000000 p (0x108 + n * 16)
def rScrubCtl (p : Fin 4) : Nat := atPart 0xB000000 p 0x1000
def rScrubStat (p : Fin 4) : Nat := atPart 0xB000000 p 0x1008

/-! FAB (Table 8.10); the registers that read alike in both instances are held at the north one -/
def rBankCtl : Nat := 0xC000000
def rBankAt : Nat := 0xC000008
def rBankStat : Nat := 0xC000010
def rBankCnt (b : Bool) : Nat := if b then 0xC000020 else 0xC000018
def rEptIdx (d : Fin 2) : Nat := atDie 0xC000000 d 0x40
def rEptData (d : Fin 2) : Nat := atDie 0xC000000 d 0x48
def rEptLoad (d : Fin 2) : Nat := atDie 0xC000000 d 0x50
def rEptSrc (d : Fin 2) : Nat := atDie 0xC000000 d 0x58
def rGeom : Nat := 0xC000080
def rFabErr (d : Fin 2) : Nat := atDie 0xC000000 d 0x88
def rPtrk (d : Fin 2) : Nat := atDie 0xC000000 d 0x90
def rCtxSeed (n : Nat) : Nat := 0xC000100 + n * 0x10
def rCtxBox (n : Nat) : Nat := 0xC000108 + n * 0x10
def rLepId (n : Nat) : Nat := 0xC000200 + n * 8

/-! LNK (R317, R523): port n = 0 to 35, module m = 0 to 11 -/
def rPort (n : Nat) : Nat := 0xD000000 + n / 18 * 0x800000 + n % 18 * 0x20
def rPerr (n : Nat) : Nat := rPort n + 8
def rLsm (m : Nat) : Nat := 0xD001000 + m / 6 * 0x800000 + m % 6 * 8
def rLsmCtl (m : Nat) : Nat := 0xD001100 + m / 6 * 0x800000 + m % 6 * 8

/-! COL (Table 9.6) -/
def rColCfg (d : Fin 2) : Nat := atDie 0xE000000 d 0
def rColStat (d : Fin 2) : Nat := atDie 0xE000000 d 8
def rColHead (d : Fin 2) : Nat := atDie 0xE000000 d 0x10
def rColErr (d : Fin 2) : Nat := atDie 0xE000000 d 0x18
def rColEvt (d : Fin 2) : Nat := atDie 0xE000000 d 0x20
def rColCtx (d : Fin 2) (n : Nat) : Nat := atDie 0xE000000 d (0x100 + n * 8)

/-! CORE (Tables 1.3, 3.9; R171, R186) -/
def rCmap (p : Fin 4) (c : Nat) : Nat := atPart 0xF000000 p (0x1000 + c * 8)

/-! ## Access -/

/-- A row of the register map: `n` registers from `base` on, `stride` apart, in `inst` instances `istride` apart; bits
software writes (RW), clears by writing 1 (W1C), and that are sticky (R8, R12). -/
structure RegRow where
  base : Nat
  stride : Nat := 8
  n : Nat := 1
  inst : Nat := 1
  istride : Nat := 0x400000
  rw : Word := 0
  w1c : Word := 0
  sticky : Word := 0
deriving DecidableEq, Repr

/-- The bits hi to lo. -/
def fb (hi lo : Nat) : Word := ones lo (hi + 1 - lo)

def fbAll : Word := fb 63 0

/-- MGT, PWR and THM. -/
def rowsA : List RegRow := [
  { base := rMgtBoot }, { base := rMgtLc, sticky := fbAll }, { base := rMgtLic, sticky := fbAll },
  { base := rMgtCfgStat, sticky := fbAll }, { base := rMgtStageCtl, rw := fb 31 16 },
  { base := rMgtStage 0, n := 2048, rw := fbAll },
  { base := rMgtRst, sticky := fb 62 62 ||| fb 55 32 ||| fb 15 0 }, { base := rMgtPeerFail, rw := fb 41 30 },
  { base := rMgtPair, sticky := fb 63 63 ||| fb 55 51 ||| fb 43 12 }, { base := rMgtPairCnt, sticky := fb 63 16 },
  { base := rMgtDumpCfg, rw := fb 63 10, sticky := fb 63 10 },
  { base := rMgtDumpStat, w1c := fb 63 63, sticky := fb 63 62 ||| fb 55 48 ||| fb 39 0 },
  { base := rMgtEvtPtr }, { base := rMgtGenCtx 0, n := 16, sticky := fb 15 0 },
  { base := rMgtEvt 0, stride := 16, n := 64 }, { base := rMgtEvtT 0, stride := 16, n := 64 },
  { base := rMgtUpdCtl, rw := fb 59 56 }, { base := rMgtUpdSrc, rw := fb 47 12 }, { base := rMgtUpdRpt, rw := fb 47 12 },
  { base := rMgtUpdAt, rw := fbAll }, { base := rMgtUpdStat }, { base := rMgtUpdRel, sticky := fbAll },
  { base := rMgtUpdCfg, rw := fb 15 0, sticky := fb 15 0 }, { base := rMgtInv 0, n := 512 },
  { base := rPwrEnvLim, rw := fbAll, sticky := fbAll }, { base := rPwrEnvRamp, rw := fb 63 32, sticky := fb 63 32 },
  { base := rPwrEnvHoist, rw := fb 63 63 ||| fb 55 8, sticky := fb 63 63 ||| fb 55 8 },
  { base := rPwrEnvHoistAt, rw := fbAll, sticky := fbAll },
  { base := rPwrEnvCtl, rw := fb 59 59 ||| fb 47 32, sticky := fb 59 59 ||| fb 47 32 },
  { base := rPwrStat }, { base := rPwrAlert, w1c := fb 11 1 }, { base := rPwrAlertMask, rw := fb 11 0, sticky := fb 11 0 },
  { base := rPwrHb }, { base := rPwrRail 0, n := 12 },
  { base := rThmStat }, { base := rThmCfg, rw := fb 63 48 }, { base := rThmCool, rw := fb 63 32 }, { base := rThmLeak },
  { base := rThmTrip, sticky := fbAll }, { base := rThmSens 0, n := 160 } ]

/-- OBS, TRC, RST, BST, HST and CTL. -/
def rowsB : List RegRow := [
  { base := rObsFtcSet }, { base := rObsSync }, { base := rObsPtc, sticky := fbAll }, { base := rObsLatch },
  { base := rObsLatchT }, { base := rObsLogCfg, rw := fb 63 21 }, { base := rObsLogPtr }, { base := rObsCnt 0, n := 152 },
  { base := rTrcCtl, rw := fb 63 58 ||| fb 31 0 }, { base := rTrcBuf 0, n := 4, rw := fb 63 21 },
  { base := rTrcPtr 0, n := 32 },
  { base := rRstCtl 0, inst := 4, rw := fb 62 57 ||| fb 8 0 }, { base := rRstStat 0, inst := 4 },
  { base := rRstGen 0, inst := 4, sticky := fb 63 48 }, { base := rRstWfd 0, inst := 4, rw := fb 63 62 },
  { base := rRstWfdMem 0 0, n := 16, inst := 4 }, { base := rRstCgen 0 0, n := 96, inst := 4, sticky := fb 15 0 },
  { base := rBstSched, rw := fb 63 63 ||| fb 47 16, sticky := fb 63 63 ||| fb 47 16 }, { base := rBstStat },
  { base := rBstLast }, { base := rBstLastCov },
  { base := rHstPcie 0, inst := 2, istride := 0x800000 }, { base := rHstHerr 0, inst := 2, istride := 0x800000 },
  { base := rHstAper 0, inst := 2, istride := 0x800000, rw := fb 47 32 },
  { base := rHstEth 0, inst := 2, istride := 0x800000 },
  { base := rRingCfg 0, stride := 0x20, n := 64, rw := fb 63 60 ||| fb 55 52 ||| fb 47 12 },
  { base := rRingIdx 0, stride := 0x20, n := 64 }, { base := rCqCfg 0, stride := 0x20, n := 64, rw := fb 47 12 },
  { base := rRingDb 0, stride := 0x20, n := 64 },
  { base := rCtxQuota 0, stride := 0x20, n := 16, rw := fb 63 12 }, { base := rCtxUse 0, stride := 0x20, n := 16 },
  { base := rCtxStat 0, stride := 0x20, n := 16, rw := fb 63 63 },
  { base := rEpwBase 0, stride := 0x10, n := 64, rw := fb 63 63 ||| fb 47 21 },
  { base := rEpwAttr 0, stride := 0x10, n := 64, rw := fb 63 60 ||| fb 56 54 ||| fb 19 0 },
  { base := rSgCfg 0, stride := 0x40, n := 64 }, { base := rSgStat 0, stride := 0x40, n := 64 },
  { base := rSgSlip 0, stride := 0x40, n := 64 }, { base := rSgWho 0, stride := 0x40, n := 64 },
  { base := rSgWhat 0, stride := 0x40, n := 64 } ]

/-- MEM, HBM, TCK, FAB, LNK, COL and CORE. -/
def rowsC : List RegRow := [
  { base := rPtRoot 0 0, n := 16, inst := 4, rw := fb 63 63 ||| fb 47 21 },
  { base := rPtInv 0, inst := 4, rw := fb 56 52 ||| fb 47 21 }, { base := rXlateErr 0, inst := 4 },
  { base := rHbmStat 0 0, stride := 0x40, n := 6, inst := 4 }, { base := rHbmEcc 0 0, stride := 0x40, n := 6, inst := 4 },
  { base := rFlogPtr 0, inst := 4 }, { base := rFlogA 0 0, stride := 16, n := 32, inst := 4 },
  { base := rFlogB 0 0, stride := 16, n := 32, inst := 4 },
  { base := rScrubCtl 0, inst := 4, rw := fb 63 63 ||| fb 47 32 }, { base := rScrubStat 0, inst := 4 },
  { base := rBankCtl, rw := fb 1 1 }, { base := rBankAt, rw := fbAll }, { base := rBankStat },
  { base := rBankCnt false, n := 2 },
  { base := rEptIdx 0, inst := 2, istride := 0x800000, rw := fb 62 61 ||| fb 18 0 },
  { base := rEptData 0, inst := 2, istride := 0x800000, rw := fbAll },
  { base := rEptLoad 0, inst := 2, istride := 0x800000, rw := fb 61 61 ||| fb 58 48 ||| fb 18 0 },
  { base := rEptSrc 0, inst := 2, istride := 0x800000, rw := fb 47 12 },
  { base := rGeom }, { base := rFabErr 0, inst := 2, istride := 0x800000 }, { base := rPtrk 0, inst := 2, istride := 0x800000 },
  { base := rCtxSeed 0, stride := 0x10, n := 16, rw := fbAll },
  { base := rCtxBox 0, stride := 0x10, n := 16, rw := fb 63 49 ||| fb 46 41 ||| fb 14 0 },
  { base := rLepId 0, n := 64 },
  { base := rPort 0, stride := 0x20, n := 18, inst := 2, istride := 0x800000, rw := fb 49 49 },
  { base := rPerr 0, stride := 0x20, n := 18, inst := 2, istride := 0x800000 },
  { base := rLsm 0, n := 6, inst := 2, istride := 0x800000 },
  { base := rLsmCtl 0, n := 6, inst := 2, istride := 0x800000, rw := fb 63 63, sticky := fb 63 63 },
  { base := rColCfg 0, inst := 2, istride := 0x800000, rw := fb 47 0 }, { base := rColStat 0, inst := 2, istride := 0x800000 },
  { base := rColHead 0, inst := 2, istride := 0x800000 }, { base := rColErr 0, inst := 2, istride := 0x800000 },
  { base := rColEvt 0, inst := 2, istride := 0x800000 }, { base := rColCtx 0 0, n := 16, inst := 2, istride := 0x800000 },
  { base := rCmap 0 0, n := 12, inst := 4, sticky := fbAll } ]

/-- Whether the row covers the address. -/
def RegRow.covers (r : RegRow) (a : Nat) : Bool :=
  decide (r.base ≤ a ∧ (a - r.base) / r.istride < r.inst ∧ (a - r.base) % r.istride % r.stride = 0 ∧
    (a - r.base) % r.istride / r.stride < r.n)

/-- The row of an address; none where no register is defined (R6). -/
def regRow (a : Nat) : Option RegRow :=
  match rowsA.find? (·.covers a) with
  | some r => some r
  | none => match rowsB.find? (·.covers a) with
    | some r => some r
    | none => rowsC.find? (·.covers a)

/-- The address at which a register is held: the registers of MGT that are package-wide (R39), and those of FAB that
read alike (R313), are held at the north instance. -/
def canonAddr (a : Nat) : Nat :=
  if 0x800000 ≤ a ∧ a < 0xC00000 then a - 0x800000
  else if 0xC800000 ≤ a ∧ a < 0xCC00000 then
    let o := a - 0xC800000
    if (o < 0x40) ∨ o = 0x80 ∨ (0x100 ≤ o ∧ o < 0x400) then a - 0x800000 else a
  else a

/-! ## Reset values -/

/-- ROLE of a port (Table 8.1): 0 X+, 1 X-, 2 Y+, 3 Y-, 4 Z+, 5 Z-, 6 service. -/
def portRole (n : Nat) : Nat :=
  let j := n % 18
  if j < 12 then j / 3
  else if j < 15 then (if n < 18 then (if j < 14 then 4 else 5) else (if j < 13 then 4 else 5))
  else 6

/-- The reset value of the register at an address: what the field tables give. The values that the manual takes from
the record or from store are DESIGN CHOICES of log entries 5 and 6. -/
def resetOf (a : Nat) : Word :=
  if a = rMgtLc then setField 0 61 3 2
  else if a = rMgtLic then setField (setField (setField 0 62 2 2) 32 16 8192) 0 3 7
  else if a = rMgtUpdRel then 0
  else if a = rMgtDumpCfg then setField (setField 0 37 27 0x2FB9F) 10 27 0xEFB9F
  else if a = rMgtUpdCfg then 0x12C
  else if a = rPwrEnvLim then 0x0FA00226000003E8#64
  else if a = rPwrEnvRamp then 0x0190019000000000#64
  else if a = rPwrEnvCtl then 0x0000022600000000#64
  else if a = rPwrAlertMask then 0x0FFF
  else if a = rThmCfg then 0x695F000000000000#64
  else if a = rThmCool then 0x00000000FFFFFFFF#64
  else if a = rTrcCtl then setField 0 58 4 15
  else if rTrcBuf 0 ≤ a ∧ a < rTrcBuf 4 then
    setField (setField 0 48 16 0x80) 21 27 (((a - rTrcBuf 0) / 8 * 0x8000000000 + 0x5F63E00000) / 0x200000)
  else if a = rBstSched then setField (setField (setField 0 63 1 1) 32 16 0xA8) 16 16 0x1E
  else if 0x5000000 ≤ a ∧ a < 0x6000000 then
    if a % 0x400000 = 0x18 then 0xC000000000000000#64 else 0
  else if 0xB000000 ≤ a ∧ a < 0xC000000 then
    if a % 0x400000 = 0x1000 then 0x8000001800000000#64 else 0
  else if 0xD000000 ≤ a ∧ a < 0xE000000 then
    let o := a % 0x800000
    if o < 0x240 ∧ o % 0x20 = 0 then
      setField (setBit 0 49 true) 54 4 (portRole ((a - 0xD000000) / 0x800000 * 18 + o / 0x20))
    else 0
  else if a = rColCfg 0 ∨ a = rColCfg 1 then 0x000001000064000A#64
  else if 0xF000000 ≤ a then
    let o := a % 0x400000
    if 0x1000 ≤ o ∧ o < 0x1060 then 0x01FFF0FFFFFFFFFF#64 else 0
  else 0

end Sys2Proof.Machine
end

