-- ==== Sys2Proof/Machine/StFab.lean ====
section
/-! DEFINITION. The state of the Tensor Fabric side of the package: ports, links, routers, tables, streams and pennants,
and of the Collective Engines (Tensor Fabric; Collective operations). -/

namespace Sys2Proof.Machine

/-- A block in a replay buffer (R267): its sequence number and the packet that ends in it, if one does. -/
structure TxBlock where
  seq : BitVec 16
  last : Option Packet
  sends : Nat
deriving DecidableEq, Repr

/-- One port (Table 8.1, R265 to R269, R303 to R308, Tables 8.24, 8.25). -/
structure Port where
  /-- the block sequence to send next; blocks sent and not acknowledged; when the oldest was sent or last acknowledged -/
  txSeq : BitVec 16
  replay : List TxBlock
  ackAt : Nat
  /-- the block sequence expected next; blocks are being discarded until replay -/
  rxSeq : BitVec 16
  rxBad : Bool
  /-- credits held, per queue TC x 4 + VC; unlisted 256 flits (R269) -/
  credits : Map Nat
  /-- flits received and not yet taken by the router -/
  flits : List (BitVec 512)
  /-- a half whose lane or LSM has failed (R265) -/
  lowBad : Bool
  highBad : Bool
  /-- a RESYNC unanswered: when first and when last sent (R305, R307) -/
  resync : Option (Nat × Nat)
deriving DecidableEq, Repr

/-- A request that waits at its source router, in order of issue (R278 to R290). `ctx` is the context whose traffic it is,
none for the management pair; `dom` is the number of the issuing domain (0 to 383 cores, 384 + p partitions, 400 + n
contexts, 416 the package), whose generation `pkt.rgen` is. -/
structure SrcReq where
  ctx : Option (Fin 16)
  dom : Nat
  who : Requester
  pkt : Packet
  /-- the I/O die of the Collective Engine that originates it (R286) -/
  die : Option (Fin 2)
deriving DecidableEq, Repr

/-- A request sent and not yet answered by all of its `left` members (R272, R297, R299). -/
structure OutReq where
  tag : BitVec 32
  bank : Bool
  dom : Nat
  who : Requester
  pkt : Packet
  left : Nat
  /-- the first refusal of a member; 0 while there is none -/
  status : BitVec 8
  /-- abandoned at CUT: closed, and its answers are late (R299, R452) -/
  gone : Bool
deriving DecidableEq, Repr

/-- A stream-table entry (R287, R289 to R294, R302). -/
structure Stream where
  src : BitVec 19
  dst : BitVec 19
  tag : BitVec 16
  bank : Bool
  /-- the class of its OPEN and its CLOSE, and the context whose routes they take -/
  tc : BitVec 2
  ctx : Option (Fin 16)
  /-- none: the OPEN is unanswered; some b: answered, tracked if b -/
  tracked : Option Bool
  /-- pennants sent since the ACK, and packets counted in the present epoch -/
  pennants : Nat
  inEpoch : Nat
  /-- packets of the stream not yet answered -/
  unanswered : Nat
  /-- epochs whose pennant is unanswered -/
  penOut : List Nat
  lastSent : Nat
  /-- ended at a cutover (R302) -/
  ended : Bool
deriving DecidableEq, Repr

/-- A tracker entry (R288, R291). -/
structure Tracker where
  src : BitVec 19
  lep : BitVec 6
  tag : BitVec 16
  counts : Map Nat
  done : List (BitVec 8)
  zeroDone : Bool
deriving DecidableEq, Repr

/-- One I/O die's half of the router. -/
structure Half where
  streams : List Stream
  nextStream : BitVec 16
  trackers : List Tracker
  /-- pennants held, with the port they came by (R292) -/
  hold : List (Nat × Packet)
  /-- copies of pennants sent and unanswered (R292) -/
  retained : List Packet
deriving DecidableEq, Repr

/-- One Laser Source Module slot (Table 8.26, R520 to R522). -/
structure Lsm where
  /-- a module is in the slot, and its identity memory passed its check -/
  present : Bool
  identOk : Bool
  serial : BitVec 128
  rated : BitVec 32
  /-- PTC of the last write-back that the module acknowledged, and PTC at which the present hour of laser-on time began -/
  backPtc : BitVec 32
  hourAt : Word
  lit : Bool
deriving DecidableEq, Repr

/-- What the last marker of a neighbour said (R495 to R497). -/
structure Marker where
  seen : Bool
  ftc : Word
  offset : BitVec 32
  lock : Bool
  holdover : Bool
  hops : BitVec 16
deriving DecidableEq, Repr

structure Fabric where
  ports : Map Port
  lsm : Map Lsm
  markers : Map Marker
  halves : Map Half
  /-- endpoint table copies: key die * 2^20 + bank * 2^19 + ID; entries whose check bits fail; entries invalidated by
  divergence (bank * 2^19 + ID) -/
  ept : Map Word
  eptBad : Map Bool
  eptDiv : Map Bool
  /-- contexts whose registers differ across the halves (R476) -/
  ctxDiff : List (Fin 16)
  /-- requests waiting at source, in order of issue; requests unanswered; the next request tag -/
  src : List SrcReq
  out : List OutReq
  nextTag : BitVec 32
  /-- `now` at the last walk of the tables (R475) -/
  walkAt : Nat
  /-- collectives that have ended: local endpoint and ID (R353) -/
  ended : List (Nat × BitVec 32)
deriving DecidableEq, Repr

/-! ## Collective Engines -/

/-- Life of a collective on this package (R327 to R332): waiting for its slots, holding them, running after GO. -/
inductive CollPhase where
  | waiting | held | running
deriving DecidableEq, Repr

/-- A chunk slot (R343 to R345) of quad `q`: a ring level (0 X, 1 Y, 2 Z; 3 the package), phase (`ag` all-gather), step and
chunk index; PARTs received; 512 elements (WIDE, or F32P in the low 32 bits) or an output tile. -/
structure Chunk where
  q : Nat
  lvl : Nat
  ag : Bool
  stp : Nat
  idx : Nat
  got : BitVec 2
  vals : List (BitVec 80)
  tile : Option TileImg
  /-- reduced with the local partial, or received whole -/
  complete : Bool
  /-- this package's own segment of the level -/
  own : Bool
  /-- it holds a credit of its inbound peer -/
  inbound : Bool
  /-- its value has been forwarded or has gone into another slot -/
  used : Bool
  /-- DATA packets sent from it and not acknowledged, and result tiles of it not yet written -/
  sends : List Nat
  writes : Nat
deriving DecidableEq, Repr

/-- A chunk to be sent: quad, level, phase, step, chunk index. -/
structure CollItem where
  q : Nat
  lvl : Nat
  ag : Bool
  stp : Nat
  idx : Nat
deriving DecidableEq, Repr

/-- A collective accepted by the package. `pos` and `part` are the package's position in its group and the partition in which
PEERS is translated (R548). -/
structure Coll where
  id : BitVec 32
  ring : Nat
  idx : BitVec 32
  ctx : Fin 16
  desc : BitVec 1024
  part : Fin 4
  px : Nat
  py : Nat
  pz : Nat
  phase : CollPhase
  /-- `now` at acceptance, when a HELD or YIELD was last sent, and when a packet last came to each engine -/
  since : Nat
  lastMsg : Nat
  lastData : Map Nat
  /-- slots on each engine, and the wait limits in nanoseconds -/
  slots : Nat
  rwait : Nat
  dlimit : Map Nat
  /-- leader: packages whose HELD counts, by rank, with their digests; GO has been sent -/
  helds : List (Nat × BitVec 32)
  goSent : Bool
  /-- a HELD or YIELD was refused for now and is to be sent again; a YIELD is out, with the expired flag or without -/
  again : Option Nat
  yield : Option Bool
  chunks : List Chunk
  todo : List CollItem
  /-- chunk credits held, by quad x 4 + level -/
  credits : Map Nat
  /-- chunks received and complete, by step; contributions applied and chunks complete -/
  stepDone : Map Nat
  fin : List Nat
  /-- result tiles handed to the memories -/
  written : Nat
  /-- answers not yet looked at: kind, key, status; DATA packets sent a second time -/
  inbox : List (Nat × Nat × BitVec 8)
  resent : List Nat
  /-- DISPATCH: items sent, dropped, and received, by 4 x 256 members; item packets unanswered; FIN masks by source member;
  result writes not yet done; the counts have been written -/
  sentItems : Map Nat
  dropItems : Map Nat
  recvItems : Map Nat
  unacked : List Nat
  fins : List (Nat × Word)
  left : Nat
  counted : Bool
  sat : Bool
deriving DecidableEq, Repr

end Sys2Proof.Machine
end

