-- ==== Sys2Proof/Machine/StRun.lean ====
section
/-! DEFINITION. Launches and schedule groups (Spans, static schedules and the Smient flow), and what the package sends
out. -/

namespace Sys2Proof.Machine

/-- A span of a group (Table 5.2): OFF, BUDGET, KIND. -/
structure SpanEnt where
  off : Nat
  budget : Nat
  kind : Nat
deriving DecidableEq, Repr

/-- An entry of the core table (Table 5.2). -/
structure CoreEnt where
  pkg : Nat
  core : CoreAddr
  group : Nat
  code : Nat
  base : Nat
  size : Nat
  entry : Nat
deriving DecidableEq, Repr

/-- A relocation entry with the endpoint ID that the launch binds (R199). -/
structure RelocEnt where
  core : Nat
  bundle : Nat
  ep : Nat
deriving DecidableEq, Repr

/-- A LAUNCH in progress on this package. `me` is the package's image package index. -/
structure Launch where
  ring : Nat
  idx : BitVec 32
  ctx : Fin 16
  me : Nat
  t0 : Nat
  seed : Word
  limitCore : Nat
  cores : List CoreEnt
  relocs : List RelocEnt
  /-- context address of the image, and the partition in which it is translated (R548) -/
  image : Nat
  part : Fin 4
  floor : Nat
  /-- the tier, the fabric scale and the FLAGS that the image asks for (R173) -/
  needs : Nat × Nat × Nat
  /-- the saturation record (R63); a span of it overran (R182) -/
  saturated : Bool
  overran : Bool
  /-- the status it will end with, once one is fixed -/
  status : Option (BitVec 8)
deriving DecidableEq, Repr

/-- A schedule-group slot (R174 to R182, Tables 5.7 to 5.11). Barrier n enters span n; barrier 0 is the launch barrier. -/
structure Group where
  /-- the launch it belongs to, and its index in the image -/
  ring : Nat
  idx : BitVec 32
  ctx : Fin 16
  t0 : Nat
  limitCore : Nat
  scope : Nat
  spans : List SpanEnt
  /-- every member: image package index, core; which of them are local is `me` -/
  members : List (Nat × CoreAddr)
  me : Nat
  /-- arrivals held: barrier number, arrival, FTC of its receipt; how many barriers have had their last arrival -/
  held : List (Nat × Arrival × Nat)
  full : Nat
  /-- the barrier whose release the group awaits -/
  barrier : Nat
deriving DecidableEq, Repr

/-- What the package sends out of itself, in order. -/
inductive Output where
  /-- a packet leaves on a port; `copy` distinguishes multicast copies -/
  | packet (port : Nat) (pkt : Packet)
  /-- bytes written to host memory through the host window of a port -/
  | hostWrite (port : Fin 2) (addr : Nat) (data : List Byte)
  /-- an MSI-X message of a function: vector -/
  | msix (port : Fin 2) (fn : PcieFn) (vector : Nat)
  /-- an interrupt of a management core -/
  | mgmtIrq (cause : Nat)
  /-- tiles that leave by Ethernet: queue pair (0 in answer to a remote initiator), key and remote address (R374, R382) -/
  | rdma (die : Fin 2) (qp : Nat) (key : BitVec 32) (addr : Nat) (data : List TileData)
  /-- a notice to the fabric manager (R461) -/
  | notice (seq : BitVec 16) (word : Word)
  /-- a link block NAK, ACK or RESYNC sent by a port (R267, R305) -/
  | link (port : Nat) (kind : Nat) (seq : BitVec 16)
  /-- an arrival sent to another package of a schedule group (R174) -/
  | arrival (a : Arrival)
  /-- a message of the management pair (R468) -/
  | mgmt (body : Word)
  /-- a voltage setpoint of an AVSBus rail, in the unit of PWR_RAIL_n SET (R389, R390) -/
  | avsSet (rail : Nat) (set : Nat)
  /-- bytes written back to an LSM (R521) -/
  | lsmWrite (m : Nat) (hours : BitVec 32)
  /-- a completion answered to a BAR read, or a response to a register read -/
  | readData (port : Fin 2) (data : List Byte)
deriving DecidableEq, Repr

end Sys2Proof.Machine
end

