-- ==== Sys2Proof/Machine/StHost.lean ====
section
/-! DEFINITION. The state of the host side: rings, commands, contexts, mailboxes, endpoint windows, PCIe and Ethernet
ports, application cores (Host links, commands and the control complex; Package organization, Endpoints and windows). -/

namespace Sys2Proof.Machine

/-- A command that has been started and is not completed (R366 to R371). -/
structure Cmd where
  ring : Nat
  idx : BitVec 32
  /-- the descriptor as read -/
  desc : BitVec 1024
  start : Word
  /-- the first error status met; 0 while none has been -/
  status : BitVec 8
  warn : BitVec 8
  detail : BitVec 32
  /-- tiles of a MOVE or RDMA that are still to be written -/
  left : Nat
  /-- everything it does is done (R251); only its completion record is to be written -/
  done : Bool
deriving DecidableEq, Repr

/-- The mailbox of a context (R380). -/
structure Mailbox where
  req : BitVec 512
  busy : Bool
  status : BitVec 8
  value : Word
deriving DecidableEq, Repr

/-- A memory region registered for remote initiators (R382). -/
structure Region where
  key : BitVec 32
  ctx : Fin 16
  base : Nat
  pages : Nat
  fmt : BitVec 8
deriving DecidableEq, Repr

/-- Traps that a Kotan custom instruction raises (R384, R385). -/
inductive Trap where
  | illegal | virtual | loadFault | storeFault | loadMisaligned | storeMisaligned
deriving DecidableEq, Repr

/-- What the manual gives of an application core: the registers that the Kotan instructions write, a trap raised. -/
structure App where
  x : Map Word
  trap : Option Trap
deriving DecidableEq, Repr

structure HostSt where
  /-- the index of each ring that the package reads next -/
  ringNext : Map (BitVec 32)
  /-- indices of a ring that have completed above LOW -/
  ringDone : List (Nat × BitVec 32)
  cmds : List Cmd
  /-- rings that start no further command and stop once none is started (R361, R368, R381) -/
  halted : List Nat
  mail : Map Mailbox
  /-- second-level tables that the runtime has handed out; pages unmapped and not yet free, by context, first page and number
  (R210) -/
  tables : Nat
  freeing : List (Nat × Nat × Nat)
  /-- host ports held down by a self-test: 0, 1 PCIe, 2, 3 Ethernet (Table 14.1) -/
  portsHeld : List Nat
  regions : List Region
  /-- windows cleared whose accepted packets are not all completed (R35) -/
  epwBusy : List Nat
  apps : Map App
deriving DecidableEq, Repr

end Sys2Proof.Machine
end

