-- ==== Sys2Proof/Machine/StSys.lean ====
section
/-! DEFINITION. The state of the management side: notices, the non-volatile store, power and temperature, self-test, trace
and update (Power, load envelope and thermal control; Bring-up, configuration and licences; Reset, recovery and redundancy;
Self-test, counters and trace; Firmware update and field service). -/

namespace Sys2Proof.Machine

/-- A notice that has no answer yet (R460, R461): how often it was sent, and `now` when last. -/
structure Notice where
  seq : BitVec 16
  word : Word
  sent : Nat
  last : Nat
deriving DecidableEq, Repr

/-- The non-volatile store (R424, R429, R431, R438, R440). -/
structure Nv where
  /-- configuration slots, as stored; empty where the header cannot be read -/
  slotA : List Byte
  slotB : List Byte
  /-- the operator key hash and the next one -/
  opHash : Option (BitVec 384)
  nextHash : Option (BitVec 384)
  /-- the licence token, and the key hash of a pending transition token -/
  licence : List Byte
  pendHash : BitVec 384
  /-- the core-map store: two copies, each with its sequence number (R431) -/
  maps0 : Map Word
  maps1 : Map Word
  seq0 : Nat
  seq1 : Nat
  /-- fused disabled bits of each cluster -/
  fuses : Map (BitVec 9)
deriving DecidableEq, Repr

/-- The discrete signals (R409, R414, R423, R543): the inputs as they stand, and what they have latched. -/
structure Pins where
  /-- ISOLATE_N and PKG_RESET_N are asserted -/
  isolate : Bool
  reset : Bool
  /-- the package is isolated, or shut down with THERMTRIP_N asserted, until PKG_RESET_N -/
  isolated : Bool
  shut : Bool
  /-- the package stopped for want of VSRAM or VIO (Table 11.1) -/
  stopped : Bool
deriving DecidableEq, Repr

/-- Fabric time (R494 to R497): `now` at the last update and at the start of holdover, updates in a row within 4 ticks, the
steered rate in ticks per millisecond, and whether the FTC has been stepped to the parent's time. -/
structure Sync where
  steerAt : Nat
  holdAt : Nat
  good : Nat
  rate : Int
  stepped : Bool
deriving DecidableEq, Repr

/-- A crash dump being taken (R463 to R467): its trigger, the partition dumped (none: the package), the region it goes to,
the unit read next, the tiles of the records so far, and `now` when the reading of the unit began. -/
structure Dump where
  trigger : Nat
  part : Option (Fin 4)
  base : Nat
  alt : Bool
  unit : Nat
  tiles : List TileData
  recs : Nat
  started : Word
  unitAt : Nat
  /-- a record has not fitted -/
  trunc : Bool
  /-- `now` at its start -/
  began : Nat
deriving DecidableEq, Repr

/-- The management pair, beside MGT_PAIR (R468 to R473): the next message sequence, the active's copy of a message withheld by
a divergence, `now` when the reload began, and the messages of a core in SHADOW that were equal in a row, and that differed. -/
structure Pair where
  seq : BitVec 32
  held : Option PairCopy
  reloadAt : Nat
  same : Nat
  diffs : Nat
deriving DecidableEq, Repr

/-- A load envelope, in the layout of PWR_ENV_LIM, RAMP, HOIST and HOIST_AT. -/
structure Envelope where
  lim : Word
  ramp : Word
  hoist : Word
  hoistAt : Word
deriving DecidableEq, Repr

/-- The Power Governor and the thermal inputs (R391 to R413). -/
structure Gov where
  /-- the envelope in force, and one committed that the next governor step takes (R391) -/
  env : Envelope
  next : Option Envelope
  /-- H and the hoist cap, in units of 0.1 mW -/
  h : Nat
  cap : Nat
  /-- demands of the window WIN, newest first, each above those after it: `now` and watts -/
  peaks : List (Nat × Nat)
  /-- `now` at the last governor step, release, AVSBus read, BEAT and write of THM_COOL -/
  stepAt : Nat
  relAt : Nat
  avsAt : Nat
  hbAt : Nat
  coolAt : Option Nat
  /-- the model assumes the coolant of R411 in place of THM_COOL -/
  coolStale : Bool
  /-- the leak state measured last, and since when it has held -/
  leak : Nat
  leakAt : Nat
  /-- sensors that read low, and since when -/
  low : Map Nat
deriving DecidableEq, Repr

/-- Bring-up (R417 to R434). -/
structure Boot where
  /-- `now` when the last of "every rail in range" and "PKG_RESET_N released" came true, and when POR began -/
  since : Nat
  porAt : Nat
  /-- rails out of range -/
  lost : List Nat
  /-- the memories hold what a completed MEMORY phase left them (R423); the boot ROM has verified the firmware; LINKS runs in
  full -/
  inited : Bool
  verified : Bool
  relink : Bool
  /-- the cause with which CLOCKS ends in WAIT_CONFIG; 0 for none -/
  wait : Nat
  /-- partitions that failed in CLOCKS -/
  bad : List (Fin 4)
  /-- RESET_DONE of a package reset is to be sent at READY -/
  due : Bool
  /-- clusters whose known-answer runs are done -/
  known : List Nat
deriving DecidableEq, Repr

/-- A requested slice (R482 to R486). A slice of a MAINT has its command, context and partition of R548. -/
structure Slice where
  code : Nat
  target : Nat
  force : Bool
  cmd : Option (Nat × BitVec 32)
  /-- queued to load new DSP code (R511) -/
  dsp : Bool
  report : Nat
  part : Fin 4
  req : Word
  reqAt : Nat
  /-- FTC and `now` at its start -/
  start : Option (Word × Nat)
  /-- the fence of a forced slice has been placed; partition held for it -/
  fenced : Bool
deriving DecidableEq, Repr

/-- Self-test: the queue, oldest first; the period now running, and the next pair of its catalogue. -/
structure Bst where
  queue : List Slice
  period : Nat
  next : Nat
deriving DecidableEq, Repr

/-- A part of an update image (Table 15.2). -/
structure PartEnt where
  part : Nat
  fmt : Nat
  off : Nat
  size : Nat
  digest : BitVec 384
deriving DecidableEq, Repr

/-- An update in progress (R506 to R515). -/
structure Upd where
  release : BitVec 32
  rollback : BitVec 32
  minTier : Nat
  oldRel : BitVec 32
  parts : List PartEnt
  /-- `now` at ACT_AT, or when the old firmware was named again -/
  actAt : Nat
  /-- parts whose check has passed: bit PART - 1 -/
  checked : BitVec 7
  /-- partitions that run the new (in a rollback: the old) runtime and PHY code, and those whose checks passed -/
  onPart : BitVec 4
  chk2 : BitVec 4
  chk4 : BitVec 4
  /-- port halves that run the DSP code of the banks now named, once an update has been activated: 2 x port + half -/
  halves : List Nat
  /-- settings blocks reset: TYPE and old VER -/
  nreset : List (Nat × Nat)
  /-- the cause with which a rollback will end -/
  cause : Nat
  /-- a report waits for the memories to come up (R515) -/
  owed : Bool
deriving DecidableEq, Repr

/-- Firmware storage: the active bank of each part, the two banks of each part (2 x PART + bank), and the bank named before the
update. -/
structure Fw where
  active : BitVec 7
  banks : Map (List Byte)
  old : BitVec 7
  floor : BitVec 32
  release : BitVec 32
deriving DecidableEq, Repr

structure SysSt where
  sync : Sync
  pins : Pins
  notices : List Notice
  nv : Nv
  /-- the installation record in force, 128 bytes; none before one is -/
  record : List Byte
  dump : Option Dump
  pair : Pair
  gov : Gov
  boot : Boot
  bst : Bst
  upd : Upd
  fw : Fw
  /-- bridge channels out of service -/
  bridgeOut : BitVec 8
  /-- the latch log has come round (R491) -/
  logFull : Bool
  /-- rows of trace not yet full, by core 8p + a (R501) -/
  trace : Map (List Byte)
  /-- Powered Time Counter: `now` at its last second, the value stored, and that of the last inventory refresh -/
  ptcAt : Nat
  ptcStored : BitVec 32
  invPtc : BitVec 32
deriving DecidableEq, Repr

end Sys2Proof.Machine
end

