-- ==== Sys2Proof/Machine/State.lean ====
section
/-! DEFINITION. The state of the package, its reset values, and the ways a step can stop. -/

namespace Sys2Proof.Machine

/-- Why a step stops with a fault. No command raises one: the manual describes every failure of a command as state (a
core in FAULT, a status, a counter), and the model gives that state. -/
inductive Fault where
  /-- raised by no command; safe -/
  | unreachable
deriving DecidableEq, Repr

/-- Why the model refuses a command. -/
inductive Refusal where
  /-- an arm of exec that has no meaning yet; safe -/
  | notModelled (mnemonic : String)
deriving DecidableEq, Repr

/-! ## Reset values of the parts -/

/-- A span-entry record slot whose bytes are all zero: not valid (R186). -/
def SpanRec.reset : SpanRec :=
  { span := 0, next := 0, stamp := 0, s := [], p := [], q := [], valid := false }

def CoreStore.reset : CoreStore := { rec0 := .reset, rec1 := .reset, ledger := 0, tally := [] }

/-- A core after core reset: STOPPED, its registers at the values of Tables 3.10 to 3.16, 4.20 and 4.21, its register
files as at a span entry (R84); s, p and q hold zero (DESIGN CHOICE, log entry 4). -/
def Core.reset : Core :=
  { st := .stopped, pc := 0, span := 0, exc := 0, s := [], v := [], t := [], k := [], p := [], q := [], sma := 0, smb := 0
    flags := 0, floor := 0, beatLim := 0, beatCnt := 0, rate := 0, code := 0, faultReg := 0, faultAddr := 0
    flights := [], nextId := 0, pend := none, atEntry := false, spanIdx := 0, atLaunch := false, stop := false, next := 0
    outCount := 0, sendCount := 0, unreplayable := false, replaying := false, throttled := false, failFence := false
    limitUsed := false, limBeats := 0, limInForce := 0, limAt := 0, measBase := 0, measAt := 0, measOk := false, rated := false, waitBeats := 0, fill := false
    fillAmt := 0, launch := none, group := 0, ctx := 0, faultAt := 0 }

/-- The units of a partition with both links up and nothing cached. -/
def Part.reset : Part :=
  { tlb := [], hbmCut := [], scrubTorn := [], linkDown := [], chanOut := [], railLost := false, fenced := false }

def Mem.reset : Mem := { pkg := [], loc := [], tcr := [], locTcr := [], ops := [], nextOp := 0 }

def Port.reset : Port :=
  { txSeq := 0, replay := [], ackAt := 0, rxSeq := 0, rxBad := false, credits := [], flits := []
    lowBad := false, highBad := false, resync := none }

def Half.reset : Half :=
  { streams := [], nextStream := 0, trackers := [], hold := [], retained := [] }

def Lsm.reset : Lsm :=
  { present := false, identOk := false, serial := 0, rated := 0, backPtc := 0, hourAt := 0, lit := false }

def Marker.reset : Marker := { seen := false, ftc := 0, offset := 0, lock := false, holdover := false, hops := 0 }

def Fabric.reset : Fabric :=
  { ports := [], lsm := [], markers := [], halves := [], ept := [], eptBad := [], eptDiv := []
    ctxDiff := [], src := [], out := [], nextTag := 0, walkAt := 0, ended := [] }

def Group.reset : Group :=
  { ring := 0, idx := 0, ctx := 0, t0 := 0, limitCore := 0, scope := 0
    spans := [], members := [], me := 0, held := [], full := 0, barrier := 0 }

def Mailbox.reset : Mailbox := { req := 0, busy := false, status := 0, value := 0 }

def App.reset : App := { x := [], trap := none }

def HostSt.reset : HostSt :=
  { ringNext := [], ringDone := [], cmds := [], halted := [], mail := [], tables := 0, freeing := [], portsHeld := [], regions := [], epwBusy := [], apps := [] }

/-- The governor before it takes control. The envelope has the reset values of Tables 11.7 to 11.9 (R393). -/
def Gov.reset : Gov :=
  { env := ⟨resetOf rPwrEnvLim, resetOf rPwrEnvRamp, 0, 0⟩, next := none, h := 5500000, cap := 5500000, peaks := [], stepAt := 0
    relAt := 0, avsAt := 0, hbAt := 0, coolAt := none, coolStale := false, leak := 0, leakAt := 0, low := [] }

def Boot.reset : Boot := { since := 0, porAt := 0, lost := [], inited := false, verified := false, relink := true, wait := 0, bad := [], due := false, known := [] }

def Upd.reset : Upd :=
  { release := 0, rollback := 0, minTier := 0, oldRel := 0, parts := [], actAt := 0, checked := 0, onPart := 0
    chk2 := 0, chk4 := 0, halves := [], nreset := [], cause := 0, owed := false }

def Pair.reset : Pair := { seq := 0, held := none, reloadAt := 0, same := 0, diffs := 0 }

/-- A package without configuration, with nothing in its non-volatile store (log entry 6). -/
def SysSt.reset : SysSt :=
  { sync := ⟨0, 0, 0, 0, false⟩
    pins := ⟨false, false, false, false, false⟩
    notices := []
    nv := { slotA := [], slotB := [], opHash := none, nextHash := none, licence := [], pendHash := 0, maps0 := [], maps1 := []
            seq0 := 0, seq1 := 0, fuses := [] }
    record := [], dump := none, pair := .reset, gov := .reset, boot := .reset, bst := ⟨[], 0, 0⟩, upd := .reset
    fw := ⟨0, [], 0, 0, 0⟩, bridgeOut := 0, logFull := false, trace := [], ptcAt := 0, ptcStored := 0, invPtc := 0 }

/-- The state of the package and the queue of commands that wait. -/
structure State where
  /-- commands waiting, first in first out -/
  pending : List Instr
  /-- elapsed nanoseconds, for the manual's time limits; the counter that free values are drawn with (the model's own) -/
  now : Nat
  freeCtr : Nat
  /-- what the package has sent out of itself, oldest first -/
  out : List Output
  /-- logical cores by index, and their span-entry stores -/
  cores : Map Core
  stores : Map CoreStore
  /-- the control-space registers, by canonical address; those of the cores are fields of Core -/
  regs : Map Word
  /-- the 152 free-running counters (R490) -/
  cnt : Map Word
  mem : Mem
  parts : Map Part
  fab : Fabric
  colls : List Coll
  launches : List Launch
  groups : Map Group
  /-- arrivals on the barrier network inside the package (R174) -/
  barNet : List Arrival
  host : HostSt
  sys : SysSt
  /-- resets in progress (R446) -/
  resets : List ResetJob
  /-- the fabric time counter -/
  ftc : Word
deriving DecidableEq, Repr

/-- The package as POR leaves it: every register at its reset value, nothing listed in memory, nothing waiting. -/
def State.reset : State :=
  { pending := [], now := 0, freeCtr := 0, out := [], cores := [], stores := [], regs := [], cnt := [], mem := .reset
    parts := [], fab := .reset, colls := [], launches := [], groups := [], barNet := [], host := .reset, sys := .reset, resets := []
    ftc := 0 }

end Sys2Proof.Machine
end

