-- ==== Sys2Proof/Machine/Ops.lean ====
section
/-! DEFINITION. The named operations over the state: its parts, registers, memories, logs and free values. -/

namespace Sys2Proof.Machine

/-- What a meaning answers. -/
abbrev Answer := Host.Outcome State Fault Refusal

/-- Ticks that the FTC counts in a nanosecond: one, but that of every 10,000 ticks one is added or left out for each unit of
the steered rate (R496). -/
def ftcTicks (now : Nat) (rate : Int) : Nat :=
  if now % 10000 = 0 ∧ now / 10000 % 100 < rate.natAbs then (if 0 < rate then 2 else 0) else 1

/-- One nanosecond in which no command comes: the FTC counts (R494; DESIGN CHOICE, log entry 2). -/
def State.idle (s : State) : State :=
  { s with now := s.now + 1, ftc := s.ftc + BitVec.ofNat 64 (ftcTicks s.now s.sys.sync.rate) }

/-! ## Parts -/

/-- The state of a logical core. -/
def State.core (s : State) (c : CoreAddr) : Core := mget (fun _ => Core.reset) s.cores (coreIdx c)

def State.setCore (s : State) (c : CoreAddr) (k : Core) : State :=
  { s with cores := mput (fun _ => Core.reset) s.cores (coreIdx c) k }

def State.modCore (s : State) (c : CoreAddr) (f : Core → Core) : State := s.setCore c (f (s.core c))

def State.store (s : State) (c : CoreAddr) : CoreStore := mget (fun _ => CoreStore.reset) s.stores (coreIdx c)

def State.setStore (s : State) (c : CoreAddr) (k : CoreStore) : State :=
  { s with stores := mput (fun _ => CoreStore.reset) s.stores (coreIdx c) k }

def State.modStore (s : State) (c : CoreAddr) (f : CoreStore → CoreStore) : State := s.setStore c (f (s.store c))

def State.part (s : State) (p : Fin 4) : Part := mget (fun _ => Part.reset) s.parts p.val

def State.setPart (s : State) (p : Fin 4) (x : Part) : State :=
  { s with parts := mput (fun _ => Part.reset) s.parts p.val x }

def State.modPart (s : State) (p : Fin 4) (f : Part → Part) : State := s.setPart p (f (s.part p))

def State.group (s : State) (g : Nat) : Group := mget (fun _ => Group.reset) s.groups g

def State.setGroup (s : State) (g : Nat) (x : Group) : State :=
  { s with groups := mput (fun _ => Group.reset) s.groups g x }

def State.modGroup (s : State) (g : Nat) (f : Group → Group) : State := s.setGroup g (f (s.group g))

def State.app (s : State) (a : AppCore) : App := mget (fun _ => App.reset) s.host.apps (a.p.val * 8 + a.a.val)

def State.setApp (s : State) (a : AppCore) (x : App) : State :=
  { s with host := { s.host with apps := mput (fun _ => App.reset) s.host.apps (a.p.val * 8 + a.a.val) x } }

/-! ## Control-space registers -/

/-- The stored value of the register at a canonical address. -/
def State.reg (s : State) (a : Nat) : Word := mget resetOf s.regs a

def State.setReg (s : State) (a : Nat) (v : Word) : State := { s with regs := mput resetOf s.regs a v }

def State.modReg (s : State) (a : Nat) (f : Word → Word) : State := s.setReg a (f (s.reg a))

/-- The field [lo+w-1:lo] of a register. -/
def State.fld (s : State) (a lo w : Nat) : Nat := fieldN (s.reg a) lo w

def State.setFld (s : State) (a lo w v : Nat) : State := s.modReg a fun x => setField x lo w v

def State.rbit (s : State) (a i : Nat) : Bool := bit (s.reg a) i

def State.setRBit (s : State) (a i : Nat) (b : Bool) : State := s.modReg a fun x => setBit x i b

/-- Counts an event in a field that holds at its largest value (R232, R314, R386). -/
def State.bump (s : State) (a lo w : Nat) : State := s.modReg a fun x => bumpHold x lo w

/-! ## Output and free values -/

def State.emit (s : State) (o : Output) : State := { s with out := s.out ++ [o] }

/-- Draws a free value: advances the counter. -/
def State.draw (s : State) : State := { s with freeCtr := s.freeCtr + 1 }

/-! ## Register files of a core (Table 3.2) -/

/-- s0 reads as zero (R80). -/
def Core.getS (k : Core) (n : Nat) : Word := if n = 0 then 0 else mget (fun _ => 0) k.s n

/-- Writes to s0 are discarded (R80). -/
def Core.setS (k : Core) (n : Nat) (v : Word) : Core :=
  if n = 0 then k else { k with s := mput (fun _ => 0) k.s n v }

def Core.getV (k : Core) (n : Nat) : VReg := mget (fun _ => 0) k.v n

def Core.setV (k : Core) (n : Nat) (v : VReg) : Core := { k with v := mput (fun _ => 0) k.v n v }

/-- A t register as a span entry leaves it: zero, untyped (R84). -/
def TReg.reset : TReg := { data := 0, fmt := fmtUntyped, anchor := noAnchor }

def Core.getT (k : Core) (n : Nat) : TReg := mget (fun _ => TReg.reset) k.t n

def Core.setT (k : Core) (n : Nat) (v : TReg) : Core := { k with t := mput (fun _ => TReg.reset) k.t n v }

def Core.getK (k : Core) (n : Nat) : Acc := mget (fun _ => Acc.zero) k.k n

def Core.setK (k : Core) (n : Nat) (v : Acc) : Core := { k with k := mput (fun _ => Acc.zero) k.k n v }

/-- p0 reads as all ones (R80). -/
def Core.getP (k : Core) (n : Nat) : BitVec 128 := if n = 0 then BitVec.allOnes 128 else mget (fun _ => 0) k.p n

/-- Writes to p0 are discarded (R80). -/
def Core.setP (k : Core) (n : Nat) (v : BitVec 128) : Core :=
  if n = 0 then k else { k with p := mput (fun _ => 0) k.p n v }

def Core.getQ (k : Core) (n : Nat) : BitVec 16 := mget (fun _ => 0) k.q n

def Core.setQ (k : Core) (n : Nat) (v : BitVec 16) : Core := { k with q := mput (fun _ => 0) k.q n v }

/-- Bit 0 of the predicate that PRED names: a slot predicated as a whole executes (R82, R123). -/
def Core.enabled (k : Core) (pred : BitVec 3) : Bool := (k.getP pred.toNat).getLsbD 0

/-- LIMIT is non-zero and below FLOOR (R174). -/
def Core.limited (k : Core) : Bool :=
  decide (fieldN k.beatLim 0 12 ≠ 0 ∧ fieldN k.beatLim 0 12 < fieldN k.floor 0 12)

/-- The state of R84 at a span entry. s, p and q keep their values. -/
def Core.enterSpan (k : Core) : Core :=
  { k with v := [], t := [], k := [], sma := 0, smb := 0, atEntry := true, outCount := 0, sendCount := 0
           unreplayable := false, replaying := false, throttled := k.limited, limitUsed := false, waitBeats := 0, fill := false }

/-! ## The core map (R17 to R24) -/

/-- The physical core, 0 to 431, bound to a logical core; none where it is unmapped. -/
def State.phys (s : State) (c : CoreAddr) : Option Nat :=
  let m := s.reg (rCmap c.p c.c.val)
  if bit m (32 + c.k.val) then none
  else some (clusterIdx c.p c.c * 9 + fieldN m (4 * c.k.val) 4)

/-- The physical core whose local memory the slots of a core reach; an unmapped core has none and never runs. -/
def State.physD (s : State) (c : CoreAddr) : Nat := (s.phys c).getD 0

/-- Code-region bounds of a core in bytes of local memory (R87, Table 3.16). -/
def Core.codeLo (k : Core) : Nat := fieldN k.code 0 5 * 0x10000

def Core.codeHi (k : Core) : Nat := k.codeLo + fieldN k.code 8 8 * 0x10000

/-- Bundles in the code region. -/
def Core.bundles (k : Core) : Nat := fieldN k.code 8 8 * 2048

/-- A local range lies within core-local memory and does not touch the code region (R87, R153). -/
def Core.localOk (k : Core) (lo n : Nat) : Bool :=
  decide (lo + n ≤ 0x200000) && (decide (lo + n ≤ k.codeLo) || decide (k.codeHi ≤ lo))

/-! ## Counters of rows and bytes (R490) -/

def State.count (s : State) (i n : Nat) : State :=
  { s with cnt := mmod (fun _ => 0) s.cnt i fun x => x + BitVec.ofNat 64 n }

/-- The counter of rows read or written at a place (Table 14.4). -/
def rowCounter (p : Place) (write : Bool) : Option Nat :=
  let w := if write then 1 else 0
  match p with
  | .coreLocal c _ => some (2 * c.p.val + w)
  | .cluster p _ => some (8 + 2 * p.val + w)
  | .reservoir p => some (16 + 2 * p.val + w)
  | .hbm p s => some (24 + 2 * (6 * p.val + s) + w)
  | _ => none

def State.countRows (s : State) (p : Place) (write : Bool) (n : Nat) : State :=
  match rowCounter p write with
  | some i => s.count i n
  | none => s

/-- Rows of core-local memory that a core's own access touches. -/
def State.countLocal (s : State) (c : CoreAddr) (write : Bool) (n : Nat) : State :=
  s.count (2 * c.p.val + if write then 1 else 0) n

/-! ## Owners (Table 6.3) -/

/-- The endpoint ID of local endpoint 0, 0 before fabric attach: its ID in the active bank (Table 8.23). -/
def State.ownEp (s : State) : BitVec 19 :=
  let r := s.reg (rLepId 0)
  let (v, id) := if s.rbit rBankCtl 63 then (bit r 31, fieldN r 0 19) else (bit r 63, fieldN r 32 19)
  if v then BitVec.ofNat 19 id else 0

/-- OWNER of a record made for a context. -/
def State.ownerOf (s : State) (ctx : Nat) : BitVec 24 := BitVec.ofNat 24 (ctx % 16 <<< 20 + s.ownEp.toNat)

/-- OWNER of a record made by the management pair or the hardware that writes with OWNER.MGT = 1. -/
def State.ownerMgt (s : State) : BitVec 24 := BitVec.ofNat 24 (1 <<< 19 + s.ownEp.toNat)

/-! ## The tile-check fault log (R227, Tables 6.12 to 6.14) -/

/-- Writes an entry. `row` is as Table 6.13 codes it. -/
def State.flog (s : State) (p : Fin 4) (scrub torn : Bool) (row core : Nat) (rec : TileRec) (level tile : Nat) : State :=
  let n := s.fld (rFlogPtr p) 0 5
  let a := setField (setField (setField (setField (setField 0 63 1 1) 62 1 (if scrub then 1 else 0)) 60 2
    (if torn then 1 else 2)) 53 7 row) 44 9 core ||| (rec.gen.setWidth 64)
  let b := setField (setField (BitVec.ofNat 64 (rec.owner.toNat <<< 40)) 36 4 level) 0 36 tile
  ((s.setReg (rFlogA p n) a).setReg (rFlogB p n) b).modReg (rFlogPtr p)
    fun x => setField (bumpHold x 32 32) 0 5 (n + 1)

/-- Logs a classification other than GOOD of a tile in a core's local memory (R112, R227). -/
def State.flogLocal (s : State) (c : CoreAddr) (cl : Class) (rec : TileRec) (slot : Nat) : State :=
  match cl with
  | .good => s
  | .torn => s.flog c.p false true 127 (packCore c).toNat rec 0 slot
  | .corrupt r => s.flog c.p false false r (packCore c).toNat rec 0 slot

/-! ## Failed translations (R211, Table 6.9) -/

/-- Causes of MEM_XLATE_ERR. -/
def xNotMapped : Nat := 1
def xNoWrite : Nat := 2
def xNoRead : Nat := 3
def xBadTarget : Nat := 4
def xWalkErr : Nat := 5
def xReserved : Nat := 6

/-- Latches a failed access in the partition's MEM_XLATE_ERR. -/
def State.xlateErr (s : State) (p : Fin 4) (cause ctx addr : Nat) : State :=
  s.setReg (rXlateErr p) (setField (setField (setField 0 56 8 cause) 52 4 ctx) 0 48 addr)

/-! ## Status codes (Table 10.7) -/

def stOk : BitVec 8 := 0x00
def stTorn : BitVec 8 := 0x01
def stCorrupt : BitVec 8 := 0x02
def stFenced : BitVec 8 := 0x03
def stRwTimeout : BitVec 8 := 0x04
def stQuota : BitVec 8 := 0x05
def stOverrun : BitVec 8 := 0x06
def stDropped : BitVec 8 := 0x07
def stIsolation : BitVec 8 := 0x08
def stStale : BitVec 8 := 0x09
def stLinkLoss : BitVec 8 := 0x0A
def stLicence : BitVec 8 := 0x0B
def stConfig : BitVec 8 := 0x0C
def stSaturated : BitVec 8 := 0x0D
def stUnreadable : BitVec 8 := 0x0E
def stTimeout : BitVec 8 := 0x0F

/-! ## Packets (Tables 8.4, 8.5) -/

/-- Packet types (Table 8.5). -/
def ptWriteTile : BitVec 4 := 1
def ptReadTile : BitVec 4 := 2
def ptWrite8 : BitVec 4 := 3
def ptRead8 : BitVec 4 := 4
def ptNotify : BitVec 4 := 5
def ptOpen : BitVec 4 := 6
def ptClose : BitVec 4 := 7
def ptMgmt : BitVec 4 := 8
def ptColl : BitVec 4 := 9
def ptAck : BitVec 4 := 10
def ptReadResp : BitVec 4 := 11
def ptResp8 : BitVec 4 := 12
def ptNack : BitVec 4 := 13
def ptResync : BitVec 4 := 14

/-- Traffic classes. -/
def tcTensor : BitVec 2 := 0
def tcColl : BitVec 2 := 1
def tcControl : BitVec 2 := 2

/-- A packet with every field zero. -/
def blankPacket : Packet :=
  { typ := 0, tc := 0, dl := false, ph := false, bank := false, pen := false, trk := false, det := false, min := false
    mc := false, rty := false, dstEp := 0, srcEp := 0, dstCoord := 0, midCoord := 0, dhint := 0, offset := 0, stream := 0
    epoch := 0, pcount := 0, rq := 0, core := 0, rgen := 0, seq := 0, tag := 0, data8 := 0, mask := 0, status := 0, coll := 0
    hcrc := 0, payload := .none }

/-! ## Events and notices (R460, R461, Table 13.6) -/

/-- FM_EP of the installation record in force (Table 8.9). -/
def State.fmEp (s : State) : BitVec 19 := BitVec.ofNat 19 (leAt s.sys.record 0x44 4)

/-- The package is attached to the fabric: an installation record is in force, and LINKS or a later phase has been
reached (R417, R427). -/
def State.attached (s : State) : Bool :=
  !s.sys.record.isEmpty && decide (4 ≤ s.fld rMgtBoot 60 4 ∧ s.fld rMgtBoot 60 4 ≤ 6)

/-- Queues a request at the source router (R278); `dom` is the number of the issuing domain, whose generation `gen` is. -/
def State.issue (s : State) (ctx : Option (Fin 16)) (dom : Nat) (who : Requester) (pkt : Packet) : State :=
  { s with fab := { s.fab with src := s.fab.src ++ [⟨ctx, dom, who, pkt, none⟩] } }

/-- A notice, as a WRITE8 of the management pair to FM_EP (R460). -/
def State.sendNotice (s : State) (n : Notice) : State :=
  s.issue none 416 (.notice n.seq)
    { blankPacket with
      typ := ptWrite8, tc := tcControl, dstEp := s.fmEp, offset := BitVec.ofNat 40 (n.seq.toNat % 512 * 8)
      data8 := n.word, rgen := BitVec.ofNat 16 (s.fld rMgtRst 0 16) }

/-- Reports an event in the log, MGT_EVT_n; if the package is attached to the fabric, also by a notice (R460). SEQ is the
number of events before it, TOTAL modulo 2^16. -/
def State.event (s : State) (code detail : Nat) : State :=
  let tot := s.fld rMgtEvtPtr 32 32
  let n := s.fld rMgtEvtPtr 0 6
  let w : Word := setField (setField (setField 0 56 8 code) 40 16 tot) 0 40 detail
  let s := ((s.setReg (rMgtEvt n) w).setReg (rMgtEvtT n) s.ftc).modReg rMgtEvtPtr
    fun x => setField (bumpHold x 32 32) 0 6 (n + 1)
  if s.attached then
    let nt : Notice := ⟨BitVec.ofNat 16 tot, w, 1, s.now⟩
    { s.sendNotice nt with sys := { s.sys with notices := s.sys.notices ++ [nt] } }
  else s

end Sys2Proof.Machine
end

