-- ==== Sys2Proof/Machine/Access.lean ====
section
/-! DEFINITION. Who may write which control-space register, and when the package serves control space (R4 to R8, R312,
R392, R412 to R416, R419, R442, R443, R477, R478). -/

namespace Sys2Proof.Machine

/-! ## Phases (Table 12.10) -/

def phPor : Nat := 0
def phMgmt : Nat := 1
def phClocks : Nat := 2
def phMemory : Nat := 3
def phLinks : Nat := 4
def phCores : Nat := 5
def phReady : Nat := 6
def phWait : Nat := 7
def phFailed : Nat := 8

def State.phase (s : State) : Nat := s.fld rMgtBoot 60 4

/-- SCRAPPED (Table 12.7). -/
def lcScrapped : Nat := 7

/-- The blocks that are served before READY: MGT, PWR, THM, and those of R312. -/
def earlyBlock (a : Nat) : Bool :=
  decide (a < 0x4000000) || decide (0xC000000 ≤ a ∧ a < 0xE000000) || a == rEpwBase 0 || a == rEpwAttr 0

/-- Control space is served to a source (R312, R419, R427, R442; what is not said is DESIGN CHOICE, log entry 26). -/
def State.serves (s : State) (src : RegSource) (a : Nat) : Bool :=
  let ph := s.phase
  if ph = phReady then true
  else if ph = phPor ∨ s.fld rMgtLc 61 3 = lcScrapped then false
  else match src with
    | .mgmtCore => true
    | .i3c => earlyBlock a
    | .pf _ => decide (phMemory ≤ ph) && earlyBlock a
    | .fabricMgr => decide (phLinks ≤ ph ∧ ph ≤ phCores) && earlyBlock a
    | .runtime => ph == phCores

/-- The register takes writes from the source. `a` is a canonical address. -/
def mayWrite (src : RegSource) (a : Nat) : Bool :=
  if rPwrEnvLim ≤ a ∧ a ≤ rPwrEnvCtl then
    match src with | .i3c | .fabricMgr | .mgmtCore => true | _ => false
  else if a = rPwrHb then src == .i3c
  else if a = rMgtPeerFail then src == .mgmtCore || src == .fabricMgr
  else if a = rThmCool then src == .i3c || src == .mgmtCore
  else if (rMgtUpdCtl ≤ a ∧ a ≤ rMgtUpdCfg) ∨ a = rMgtStageCtl ∨ (rMgtStage 0 ≤ a ∧ a < rMgtStage 2048) ∨ a = rMgtRst ∨ a = rMgtPair ∨ a = rMgtDumpCfg ∨
      a = rMgtDumpStat then src != .runtime
  else if 0x5000000 ≤ a ∧ a < 0x6000000 then
    match src with | .mgmtCore | .pf _ | .fabricMgr => true | _ => false
  else if rCtxQuota 0 ≤ a ∧ a < rCtxQuota 16 then
    match src with | .mgmtCore | .pf _ => true | _ => false
  else true

/-- A write from the source reaches the register. -/
def State.accepts (s : State) (src : RegSource) (a : Nat) : Bool := s.serves src a && mayWrite src a

/-- A write by the access codes of the register's fields (R8). -/
def State.mergeReg (s : State) (a : Nat) (v : Word) : State :=
  match regRow a with
  | some r => s.modReg a fun x => regMerge x v r.rw r.w1c
  | none => s

/-- The effect of a register write, if the register takes it. -/
def State.onWrite (s : State) (src : RegSource) (a : Nat) (f : State → State) : State :=
  if s.accepts src a then f s else s

end Sys2Proof.Machine
end

