-- ==== Sys2Proof/Machine/Flags.lean ====
section
/-! DEFINITION. Conditions, predicates and the sticky flags of a core (Fenyo instruction set, R82, R123, R148, R153;
Table 3.11). -/

namespace Sys2Proof.Machine

/-! ## CORE_FLAGS (Table 3.11) -/

def Core.setKsat (k : Core) : Core := { k with flags := setBit k.flags 0 true }
def Core.setInv (k : Core) : Core := { k with flags := setBit k.flags 1 true }
def Core.setOvf (k : Core) : Core := { k with flags := setBit k.flags 2 true }
def Core.setBelowFloor (k : Core) : Core := { k with flags := setBit k.flags 3 true }

/-- Sets a flag if an event happened. -/
def Core.flagIf (k : Core) (b : Bool) (f : Core → Core) : Core := if b then f k else k

/-! ## Predicates (R82) -/

/-- The predicate bit that governs element `i` of width `w`. -/
def predBit (w i : Nat) : Nat := if w = 16 then i / 2 else if w = 64 then 2 * i else i

/-- Element `i` of width `w` is enabled. -/
def predOn (p : BitVec 128) (w i : Nat) : Bool := p.getLsbD (predBit w i)

/-- A predicate with bit `i` replaced. -/
def setPredBit (p : BitVec 128) (i : Nat) (b : Bool) : BitVec 128 :=
  let m : BitVec 128 := 1#128 <<< i
  if b then p ||| m else p &&& ~~~m

/-! ## Conditions -/

/-- COND of SCMP. -/
def scmpCond (cond : BitVec 3) (a b : Word) : Bool :=
  match cond.toNat with
  | 0 => a == b
  | 1 => a != b
  | 2 => a.slt b
  | 3 => a.ult b
  | 4 => !a.slt b
  | _ => !a.ult b

/-- Integer comparison of VCMP, on elements of width `w`: signed. -/
def vcmpInt (code w a b : Nat) : Bool :=
  let x := (BitVec.ofNat w a).toInt
  let y := (BitVec.ofNat w b).toInt
  match code with
  | 0 => decide (x = y)
  | 1 => decide (x ≠ y)
  | 2 => decide (x < y)
  | _ => decide (x ≤ y)

/-- Float comparison of VCMP (IEEE 754). -/
def vcmpFloat (f : EFmt) (code a b : Nat) : Bool :=
  let x := decodeElem f a
  let y := decodeElem f b
  match code with
  | 0 => eqVal x y
  | 1 => !eqVal x y
  | 2 => ltVal x y
  | 3 => ltVal x y || eqVal x y
  | _ => isNan x || isNan y

end Sys2Proof.Machine
end

