-- ==== Sys2Proof/Machine/Operands.lean ====
section
/-! DEFINITION. The operand forms of the Fenyo slots: elements of vector registers, rows, local addresses, tiles held in a
register or in core-local memory, scale strips and tensor scales, fabric addresses (Fenyo instruction set, R88, R137 to
R141, R144, R148, R153, R155; Table 1.6). -/

namespace Sys2Proof.Machine

/-! ## Vector registers -/

/-- Element `i` of width `w`. -/
def vElem (x : VReg) (w i : Nat) : Nat := bitsAt x (w * i) w

/-- The register whose element `i` of width `w` is `f i` where it is enabled and that of `old` elsewhere. -/
def vBuild (old : VReg) (w : Nat) (on : Nat → Bool) (f : Nat → Nat) : VReg :=
  BitVec.ofNat 4096 (packNat w ((List.range (4096 / w)).map fun i => if on i then f i else vElem old w i))

/-- Byte `i` of a vector register. -/
def vByte (x : VReg) (i : Nat) : Nat := bitsAt x (8 * i) 8

/-- A register with the `w` bits at bit `lo` replaced. -/
def vSet (x : VReg) (lo w v : Nat) : VReg :=
  (x &&& ~~~(BitVec.ofNat 4096 ((2 ^ w - 1) <<< lo))) ||| BitVec.ofNat 4096 ((v % 2 ^ w) <<< lo)

/-- Row `r` of a vector register: 64 bytes. -/
def vRow (x : VReg) (r : Nat) : Row := (x >>> (512 * r)).setWidth 512

/-- Element width of an integer or logical operation (R148): 32, 16 or 64. -/
def intWidth (ty : BitVec 2) : Nat := if ty = 0 then 32 else if ty = 1 then 16 else 64

/-- Element format of a float operation (R148). -/
def floatFmt (ty : BitVec 2) : EFmt := if ty = 0 then .fp32 else .bf16

/-- Rounding of float arithmetic (R148). -/
def floatRm (rm : BitVec 2) : Rm := if rm = 0 then .rne else if rm = 1 then .rtz else if rm = 2 then .up else .down

/-- Rounding of VCVT (R149). -/
def cvtRm (rm : BitVec 3) : Rm :=
  match rm.toNat with | 0 => .rne | 1 => .rtz | 2 => .sr | 3 => .up | _ => .down

/-- Rounding of TRD (R145). -/
def trdRm (rm : BitVec 2) : Rm := if rm = 0 then .rne else if rm = 1 then .rtz else .sr

/-! ## Local addresses -/

/-- Sign extension of an immediate. -/
def sext {w : Nat} (x : BitVec w) : Word := x.signExtend 64

/-- The local address of layout LM (R153); sizes are 8, 64, 512 and 4,096 bytes. -/
def Core.lmAddr (k : Core) (f : FLM) (size : Nat) : Word := k.getS f.rb.toNat + sext f.imm * BitVec.ofNat 64 size

/-- The address register of a memory operand: s[16 + field] (R137). -/
def memReg {w : Nat} (x : BitVec w) : Nat := 16 + x.toNat

/-! ## Tiles of the T slot -/

/-- A t register as a tile. It carries no record of its own; its format and anchor are the register's (R83). -/
def TReg.img (t : TReg) : TileImg := ⟨t.data, ⟨0, 0, 0, t.fmt, 0, 0, t.anchor⟩⟩

/-- The strip in slot `j` of an E8M0 tile: 256 bytes (R140). -/
def stripOf (t : TileData) (j : Nat) : BitVec 2048 := BitVec.ofNat 2048 (bitsAt t (2048 * j) 2048)

/-- Byte `i` of a scalar register. -/
def scaleByte (x : Word) (i : Nat) : Byte := field x (8 * i) 8

/-! ## Counts and fabric addresses -/

/-- CNT of a mover operation (R155): 0 stands for 2^w. -/
def tileCount {w : Nat} (cnt : BitVec w) : Nat := if cnt = 0 then 2 ^ w else cnt.toNat

/-- The endpoint ID of a fabric address (Table 1.6). -/
def faEp (a : Word) : BitVec 19 := field a 40 19

/-- The offset of a fabric address. -/
def faOff (a : Word) : BitVec 40 := field a 0 40

/-- A field Q or RQ names a counter (R124). -/
def qNamed (q : BitVec 5) : Bool := q.getLsbD 4

/-- A field Q or RQ holds a code that is not reserved. -/
def qLegal (q : BitVec 5) : Bool := q.getLsbD 4 || q == 0

/-- A scope field holds a code of Table 4.5. -/
def scLegal (sc : BitVec 3) : Bool := decide (sc.toNat ≤ 4)

end Sys2Proof.Machine
end

