-- ==== Sys2Proof/Machine/Bundle.lean ====
section
/-! DEFINITION. The bundle: its header, its slots, the operations they hold, and which bundles are illegal (Fenyo
instruction set, R119 to R126, R130; Tables 4.1 to 4.18). -/

namespace Sys2Proof.Machine

/-- Slot numbers of CORE_FAULT (Table 4.20). -/
def slotT : BitVec 3 := 0
def slotV : BitVec 3 := 1
def slotL0 : BitVec 3 := 2
def slotL1 : BitVec 3 := 3
def slotM : BitVec 3 := 4
def slotC : BitVec 3 := 5
def slotHeader : BitVec 3 := 7

/-- Bits [lo+w-1:lo] of a slot. -/
def sb (x : BitVec 40) (lo w : Nat) : BitVec w := (x >>> lo).setWidth w

/-- The reserved bits [hi:0] of a layout are zero. -/
def low0 (x : BitVec 40) (n : Nat) : Bool := decide (x.toNat % 2 ^ n = 0)

def sPred (x : BitVec 40) : BitVec 3 := sb x 31 3
def sOp (x : BitVec 40) : Nat := (sb x 34 6).toNat

/-- An operation, if the layout's reserved bits are zero. -/
def ifZero (b : Bool) (o : SlotOp) : Option SlotOp := if b then some o else none

/-! ## Slots (Tables 4.6 to 4.18) -/

def decTM (x : BitVec 40) : FTM :=
  ⟨sPred x, sb x 28 3, sb x 24 4, sb x 20 4, x.getLsbD 19, x.getLsbD 18, sb x 15 3, sb x 12 3, sb x 5 7, x.getLsbD 4⟩

def decTF (x : BitVec 40) : FTF := ⟨sPred x, sb x 28 3, sb x 24 4, sb x 20 4, x.getLsbD 19, x.getLsbD 18, x.getLsbD 17⟩

def decTR (x : BitVec 40) : FTR :=
  ⟨sPred x, sb x 28 3, x.getLsbD 27, sb x 23 4, sb x 19 4, sb x 17 2, sb x 12 5, sb x 7 5, sb x 0 7⟩

def decTK (x : BitVec 40) : FTK := ⟨sPred x, sb x 28 3, x.getLsbD 27, sb x 23 4⟩

/-- The T slot (Table 4.6). -/
def decodeT (x : BitVec 40) : Option SlotOp :=
  match sOp x with
  | 1 => ifZero (low0 x 4) (.tmma (decTM x))
  | 2 => ifZero (low0 x 17) (.tfma (decTF x))
  | 4 => some (.trd (decTR x))
  | 8 => ifZero (low0 x 23) (.kin (decTK x))
  | _ => none

def decVR (x : BitVec 40) : FVR :=
  ⟨sPred x, sb x 25 6, sb x 19 6, sb x 13 6, sb x 7 6, sb x 5 2, sb x 3 2⟩

def decVX (x : BitVec 40) : FVX :=
  ⟨sPred x, sb x 25 6, sb x 19 6, sb x 15 4, sb x 12 3, sb x 7 5, sb x 2 5, sb x 0 2⟩

/-- The V slot (Table 4.11). -/
def decodeV (x : BitVec 40) : Option SlotOp :=
  let r := decVR x
  let vr := ifZero (low0 x 3)
  match sOp x with
  | 0x01 => vr (.vfma r) | 0x02 => vr (.vadd r) | 0x03 => vr (.vsub r) | 0x04 => vr (.vmul r)
  | 0x05 => vr (.vmin r) | 0x06 => vr (.vmax r) | 0x07 => vr (.vcmp r) | 0x08 => vr (.viadd r)
  | 0x09 => vr (.visub r) | 0x0A => vr (.vand r) | 0x0B => vr (.vor r) | 0x0C => vr (.vxor r)
  | 0x0D => vr (.vshl r) | 0x0E => vr (.vshr r) | 0x0F => vr (.vsra r) | 0x10 => vr (.vkaddw r)
  | 0x11 => vr (.vknar r) | 0x12 => vr (.vsel r) | 0x13 => vr (.vbcst r) | 0x14 => vr (.vext r)
  | 0x15 => vr (.vperm r)
  | 0x18 => some (.vcvtTo (decVX x))
  | 0x19 => some (.vcvtFrom (decVX x))
  | 0x1C => ifZero (low0 x 21) (.vscan ⟨sPred x, sb x 25 6, sb x 22 3, x.getLsbD 21⟩)
  | 0x1D => ifZero (low0 x 25) (.vsmr ⟨sPred x, sb x 26 5, x.getLsbD 25⟩)
  | 0x1E => ifZero (low0 x 25) (.vsmw ⟨sPred x, sb x 26 5, x.getLsbD 25⟩)
  | _ => none

def decLM (l1 : Bool) (x : BitVec 40) : FLM := ⟨sPred x, l1, sb x 25 6, sb x 20 5, sb x 17 3, sb x 1 16⟩
def decLR (l1 : Bool) (x : BitVec 40) : FLR := ⟨sPred x, l1, sb x 26 5, sb x 21 5, sb x 16 5⟩
def decLI (l1 : Bool) (x : BitVec 40) : FLI := ⟨sPred x, l1, sb x 26 5, sb x 21 5, sb x 5 16⟩

/-- An L slot (Table 4.14); `lit` is the literal of a literal-form bundle. -/
def decodeL (l1 : Bool) (lit : Option (BitVec 40)) (x : BitVec 40) : Option SlotOp :=
  let m := decLM l1 x
  let r := decLR l1 x
  let i := decLI l1 x
  let lm := ifZero (low0 x 1)
  let lr := ifZero (low0 x 16)
  let li := ifZero (low0 x 5)
  match sOp x with
  | 0x01 => lm (.ldS m) | 0x02 => lm (.stS m) | 0x03 => lm (.ldR m) | 0x04 => lm (.stR m)
  | 0x05 => lm (.ldV m) | 0x06 => lm (.stV m) | 0x07 => lm (.ldT m) | 0x08 => lm (.stT m)
  | 0x10 => lr (.add r) | 0x11 => lr (.sub r) | 0x12 => lr (.and r) | 0x13 => lr (.or r) | 0x14 => lr (.xor r)
  | 0x15 => lr (.shl r) | 0x16 => lr (.shr r) | 0x17 => lr (.sra r) | 0x18 => lr (.mul r)
  | 0x20 => li (.addi i) | 0x21 => li (.andi i) | 0x22 => li (.shli i) | 0x23 => li (.shri i)
  | 0x28 => ifZero (low0 x 15) (.scmp ⟨sPred x, l1, sb x 28 3, sb x 23 5, sb x 18 5, sb x 15 3⟩)
  | 0x30 => lm (.movi ⟨sPred x, l1, sb x 26 5, sb x 1 25, lit⟩)
  | _ => none

def decMP (x : BitVec 40) : FMP := ⟨sPred x, sb x 26 5, sb x 21 5, sb x 13 8, sb x 8 5, sb x 5 3⟩
def decMF (x : BitVec 40) : FMF :=
  ⟨sPred x, sb x 26 5, sb x 21 5, sb x 13 8, sb x 8 5, sb x 3 5, x.getLsbD 2, sb x 0 2⟩

/-- The M slot (Table 4.16). -/
def decodeM (x : BitVec 40) : Option SlotOp :=
  match sOp x with
  | 1 => ifZero (low0 x 5) (.movPut (decMP x))
  | 2 => ifZero (low0 x 5) (.movFetch (decMP x))
  | 3 => ifZero (low0 x 5) (.movX (decMP x))
  | 8 => some (.send (decMF x))
  | 9 => some (.get (decMF x))
  | 10 => ifZero (!x.getLsbD 2)
    (.msend ⟨sPred x, sb x 26 5, sb x 21 5, sb x 14 7, x.getLsbD 13, sb x 8 5, sb x 3 5, sb x 0 2⟩)
  | _ => none

def decCA (x : BitVec 40) : FCA := ⟨sPred x, sb x 26 5, sb x 21 5, sb x 18 3, x.getLsbD 17, sb x 12 5⟩

/-- The C slot (Table 4.18); `stop` is STOP of the header. -/
def decodeC (stop : Bool) (x : BitVec 40) : Option SlotOp :=
  let b : FCB := ⟨sPred x, sb x 15 16, sb x 10 5, stop⟩
  let cs : FCS := ⟨sPred x, sb x 26 5, sb x 22 4⟩
  match sOp x with
  | 0x01 => ifZero (low0 x 15) (.wait ⟨sPred x, sb x 27 4, sb x 15 12⟩)
  | 0x02 => ifZero (low0 x 15) (.signal ⟨sPred x, sb x 27 4, sb x 15 12⟩)
  | 0x04 => ifZero (low0 x 10) (.br b)
  | 0x05 => ifZero (low0 x 10) (.bdec b)
  | 0x08 => ifZero (low0 x 10) (.spanBar b)
  | 0x0C => ifZero (low0 x 5)
    (.kclr ⟨sPred x, sb x 23 8, x.getLsbD 22, x.getLsbD 21, sb x 18 3, sb x 15 3, sb x 5 10⟩)
  | 0x10 => ifZero (low0 x 22) (.rdftc cs)
  | 0x11 => ifZero (low0 x 22) (.rdq cs)
  | 0x18 => ifZero (low0 x 12) (.ldvol (decCA x))
  | 0x19 => ifZero (low0 x 12) (.ldacq (decCA x))
  | 0x1A => ifZero (low0 x 12) (.strel (decCA x))
  | _ => none

/-! ## Rules on one opcode's fields (R130 items 3 to 5) -/

/-- Operand codes 0 to 4 of Table 4.8 are MX formats. -/
def mxCode (c : BitVec 3) : Bool := (kfmt c).2

/-- TMMA: SCL[6:5] and HALF (R141, R142). -/
def tmLegal (f : FTM) : Bool :=
  (mxCode f.fa || mxCode f.fb || decide (f.scl.toNat % 4 = 0)) &&
  (!f.half || ((f.fa == 0) != (f.fb == 0)))

/-- Tiles that a read-out writes (Table 3.5). -/
def trdTiles (fmt : BitVec 4) : Nat :=
  match outFmt fmt with
  | some .ks64 => 8
  | some (.plain .fp32) => 4
  | some (.plain .bf16) => 2
  | _ => 1

/-- TRD (R143 to R145): FMT, the group of destinations, RM and SX, STRIP. -/
def trLegal (f : FTR) : Bool :=
  decide (f.fmt.toNat ≤ 11) && qLegal f.q &&
  (f.ml || decide (f.dst.toNat % trdTiles f.fmt = 0)) &&
  f.rm != 3 && (f.fmt != 11 || f.rm == 0) &&
  (if f.rm = 2 then f.ml || f.sx != 31 else f.sx == 0) &&
  match outFmt f.fmt with
  | some (.mx _) | some .mxHigh => f.ml || f.strip.toNat / 8 != f.dst.toNat
  | some (.plain .e4m3) | some (.plain .e5m2) | some (.plain .int8) => decide (f.strip.toNat < 32)
  | _ => f.strip == 0

/-- KIN: SRC (R147). -/
def tkLegal (f : FTK) : Bool := f.ml || f.src == 0 || f.src == 8

/-- TY of a float operation, and of an integer or logical one (R148). -/
def tyFloat (f : FVR) : Bool := f.ty == 0 || f.ty == 1
def tyInt (f : FVR) : Bool := f.ty != 3
def evenReg (x : BitVec 6) : Bool := !x.getLsbD 0

/-- VCMP. -/
def vcmpLegal (f : FVR) : Bool :=
  f.rm == 0 && decide (f.vd.toNat < 8) && decide (f.vc.toNat < 16) &&
  (if f.vc.getLsbD 3 then tyInt f && decide (f.vc.toNat % 8 ≤ 3) else tyFloat f && decide (f.vc.toNat % 8 ≤ 4))

/-- The PART values of Table 4.12. -/
def partLegal (out : Bool) (fmt : BitVec 4) (part : BitVec 2) : Bool :=
  match outFmt fmt with
  | some (.plain .bf16) => decide (part.toNat ≤ 1)
  | some .ks64 => !out && decide (part.toNat ≤ 1)
  | some .ks64bf16 => !out
  | some (.plain .fp32) | some .mxHigh | none => false
  | some _ => true

/-- VCVT.TO and VCVT.FROM (R149, Table 4.9). -/
def vxLegal (out : Bool) (f : FVX) : Bool :=
  partLegal out f.fmt f.part &&
  (match outFmt f.fmt with
    | some (.plain .bf16) => f.vs == 0 && (if out then decide (f.rm.toNat ≤ 4) else f.rm == 0)
    | some .ks64 | some .ks64bf16 => decide (f.rm.toNat ≤ 4)
    | _ => if out then decide (f.rm.toNat ≤ 2) else f.rm == 0) &&
  (if f.rm = 2 then f.sx != 31 else f.sx == 0)

/-- The size of an access of layout LM. -/
def lmSize : SlotOp → Nat
  | .ldS _ | .stS _ => 8
  | .ldR _ | .stR _ => 64
  | .ldV _ | .stV _ => 512
  | _ => 4096

/-- RD and ROW of layout LM (R153). -/
def lmLegal (f : FLM) (size : Nat) : Bool :=
  (size == 64 || f.row == 0) &&
  (if size = 8 then decide (f.rd.toNat < 32) else if size = 4096 then decide (f.rd.toNat < 16) else true)

def mfLegal (f : FMF) (isGet : Bool) : Bool :=
  qLegal f.q && (f.tc == 0 || f.tc == 2) &&
  (if isGet then f.rq == 0 else qLegal f.rq && (!qNamed f.rq || decide (f.rb.toNat ≤ 30)))

/-- KCLR (R161). -/
def ckLegal (f : FCK) : Bool :=
  if !f.mode then !f.hw && f.fa == 0 && f.fb == 0 && f.anch == 0
  else if f.hw then f.anch == 0 else f.fa == 0 && f.fb == 0

/-- LDACQ and STREL: SC is a code of Table 4.5, and with F = 1 it is system or 0b000 (R164). -/
def caScope (f : FCA) : Bool := scLegal f.sc && (!f.f || f.sc == 4 || f.sc == 0)

/-- The rules that one operation's fields obey. -/
def opLegal : SlotOp → Bool
  | .tmma f => tmLegal f
  | .tfma _ => true
  | .trd f => trLegal f
  | .kin f => tkLegal f
  | .vfma f => tyFloat f
  | .vadd f | .vsub f | .vmul f => tyFloat f && f.vc == 0
  | .vmin f | .vmax f => tyFloat f && f.vc == 0 && f.rm == 0
  | .vcmp f => vcmpLegal f
  | .viadd f | .visub f | .vand f | .vor f | .vxor f | .vshl f | .vshr f | .vsra f | .vperm f =>
    tyInt f && f.vc == 0 && f.rm == 0
  | .vkaddw f => f.ty == 2 && f.rm == 0 && f.vc == 0 && evenReg f.vd && evenReg f.va
  | .vknar f => f.ty == 2 && f.rm == 0 && f.vc == 0 && f.vb == 0 && evenReg f.va
  | .vsel f => tyInt f && f.rm == 0 && decide (f.vc.toNat < 8)
  | .vbcst f => tyInt f && f.rm == 0 && f.vb == 0 && f.vc == 0 && decide (f.va.toNat < 32)
  | .vext f => f.ty == 2 && f.rm == 0 && f.vc == 0 && decide (f.vd.toNat < 32) && decide (f.vb.toNat < 32)
  | .vcvtTo f => vxLegal true f
  | .vcvtFrom f => vxLegal false f
  | .vscan _ | .vsmr _ | .vsmw _ => true
  | .ldS f => lmLegal f 8
  | .stS f => lmLegal f 8
  | .ldR f => lmLegal f 64
  | .stR f => lmLegal f 64
  | .ldV f => lmLegal f 512
  | .stV f => lmLegal f 512
  | .ldT f => lmLegal f 4096
  | .stT f => lmLegal f 4096
  | .add _ | .sub _ | .and _ | .or _ | .xor _ | .shl _ | .shr _ | .sra _ | .mul _ => true
  | .addi _ | .andi _ | .shli _ | .shri _ => true
  | .scmp f => decide (f.cond.toNat ≤ 5)
  | .movi f => f.lit.isNone || !f.imm.getLsbD 24
  | .movPut f | .movFetch f | .movX f => qLegal f.q && scLegal f.sc
  | .send f => mfLegal f false
  | .get f => mfLegal f true
  | .msend f => qLegal f.q && qLegal f.rq && (f.tc == 0 || f.tc == 2) &&
      decide (f.rb.toNat ≤ (if qNamed f.rq then 29 else 30))
  | .wait _ | .signal _ => true
  | .br f => f.ra == 0
  | .bdec _ => true
  | .spanBar f => f.ra == 0 && (!f.stop || f.target == 0) && f.pred == 0
  | .kclr f => ckLegal f
  | .rdftc f => f.q == 0
  | .rdq _ => true
  | .ldvol f => f.sc == 0 && f.q == 0
  | .ldacq f => caScope f && f.q == 0
  | .strel f => caScope f && qLegal f.q

/-! ## The whole bundle -/

/-- A legal bundle: its marks and the operations of its slots, in program order (R95). -/
structure Bundle where
  span : Bool
  stop : Bool
  ops : List (BitVec 3 × SlotOp)
deriving DecidableEq, Repr

/-- A slot: nothing where OCC is 0 and every bit is zero, the operation where it is 1; none if that is illegal. -/
def decodeSlot (occ : Bool) (n : BitVec 3) (x : BitVec 40) (dec : BitVec 40 → Option SlotOp) :
    Option (List (BitVec 3 × SlotOp)) :=
  if occ then
    match dec x with
    | some o => if opLegal o then some [(n, o)] else none
    | none => none
  else if x = 0 then some [] else none

/-- The bundle that 256 bits hold; none for an illegal one (R130). -/
def decodeBundle (w : BitVec 256) : Option Bundle :=
  let occ := fun i => w.getLsbD i
  let slot := fun (i : Nat) => (w >>> (16 + 40 * i)).setWidth 40
  let form := ((w >>> 6).setWidth 2).toNat
  let stop := w.getLsbD 15
  let lit := if form = 1 then some (slot 3) else none
  if ((w >>> 8).setWidth 6 : BitVec 6) ≠ 0 ∨ 2 ≤ form then none
  else
    let l0 := decodeSlot (occ 2) slotL0 (slot 2) (decodeL false lit)
    let l1 := if form = 1 then (if occ 3 then none else some []) else decodeSlot (occ 3) slotL1 (slot 3) (decodeL true none)
    match decodeSlot (occ 0) slotT (slot 0) decodeT, decodeSlot (occ 1) slotV (slot 1) decodeV, l0, l1,
      decodeSlot (occ 4) slotM (slot 4) decodeM, decodeSlot (occ 5) slotC (slot 5) (decodeC stop) with
    | some t, some v, some a, some b, some m, some c =>
      let litOk : Bool := form != 1 || (match a with | [(_, .movi _)] => true | _ => false)
      let bar : Bool := match c with | [(_, .spanBar _)] => true | _ => false
      let others := t ++ v ++ a ++ b ++ m
      if !litOk || (stop && !bar) || (bar && (!others.isEmpty || form != 0)) then none
      else some ⟨w.getLsbD 14, stop, others ++ c⟩
    | _, _, _, _, _, _ => none

end Sys2Proof.Machine
end

