-- ==== Sys2Proof/Machine/Fence.lean ====
section
/-! DEFINITION. Exceptions of a core, fences of cores, and how a LAUNCH ends by them (Fenyo instruction set, R166 to R171;
Spans, R183 to R185, R195; Reset, R19 to R21, R446, R453 to R455). -/

namespace Sys2Proof.Machine

/-! ## Launches -/

/-- The cores of an image that this package holds. -/
def Launch.locals (l : Launch) : List CoreAddr :=
  (l.cores.filter fun e => e.pkg == l.me).map CoreEnt.core

def State.findLaunch (s : State) (ring : Nat) (idx : BitVec 32) : Option Launch :=
  s.launches.find? fun l => l.ring == ring && l.idx == idx

def State.modLaunch (s : State) (ring : Nat) (idx : BitVec 32) (f : Launch → Launch) : State :=
  { s with launches := updWhere (fun l => l.ring == ring && l.idx == idx) f s.launches }

/-- The launch that a core runs. -/
def State.launchOf (s : State) (c : CoreAddr) : Option Launch :=
  match (s.core c).launch with
  | some (r, i) => s.findLaunch r i
  | none => none

/-- A core that has a launch's work in hand: it runs, waits at a barrier, or awaits its replay on a spare. -/
def Core.busy (k : Core) : Bool :=
  k.st == .run || k.st == .barrier || (k.st == .stopped && k.failFence) || !k.flights.isEmpty

/-- Rewrites the started command of a ring and index. -/
def State.modCmd (s : State) (ring : Nat) (idx : BitVec 32) (f : Cmd → Cmd) : State :=
  { s with host := { s.host with cmds := updWhere (fun c => c.ring == ring && c.idx == idx) f s.host.cmds } }

/-- Ends a command's work with a status: the first error met stands (R371). -/
def Cmd.finish (c : Cmd) (st : BitVec 8) : Cmd := { c with status := if c.status = 0 then st else c.status, done := true }

/-- The group slots of a launch. -/
def State.launchSlots (s : State) (l : Launch) : List Nat :=
  (List.range 64).filter fun g =>
    s.rbit (rSgCfg g) 63 && (s.group g).ring == l.ring && (s.group g).idx == l.idx

/-- A context that runs no launch has seed 0 and the whole system as its route box (R200, R283). -/
def State.endRoute (s : State) (n : Fin 16) : State :=
  if s.launches.any fun l => l.ctx == n then s
  else
    let box := setField (setField (s.reg (rCtxBox n.val)) 49 15 (s.fld rGeom 49 15)) 0 15 0
    (s.setReg (rCtxSeed n.val) 0).setReg (rCtxBox n.val) box

/-- Completes a LAUNCH whose local cores are all done (R373): its record is to be written, its slots are free, its cores
belong to no launch. DETAIL is the number of overruns summed over its groups. -/
def State.settleLaunch (s : State) (l : Launch) : State :=
  if l.locals.any fun c => (s.core c).busy then s
  else
    let slots := s.launchSlots l
    let detail := slots.foldl (fun n g => n + s.fld (rSgStat g) 32 16) 0
    let warn := (if l.overran then 1 else 0) + (if l.saturated then 4 else 0)
    let s := s.modCmd l.ring l.idx fun c =>
      { c.finish (l.status.getD 0) with warn := c.warn ||| BitVec.ofNat 8 warn, detail := BitVec.ofNat 32 detail }
    let s := slots.foldl (fun s g => (s.setRBit (rSgCfg g) 63 false).setFld (rSgStat g) 60 4 0) s
    let s := l.locals.foldl (fun s c => s.modCore c fun k => { k with launch := none, fill := false }) s
    { s with launches := s.launches.filter fun x => !(x.ring == l.ring && x.idx == l.idx) }.endRoute l.ctx

/-- Completes every LAUNCH that has nothing left to do. -/
def State.settle (s : State) : State := s.launches.foldl State.settleLaunch s

/-! ## Fences for stop (R453) -/

/-- The fence of one core: it issues no further bundle (R116). A core in FAULT stays there (R185). -/
def State.fenceCore (s : State) (c : CoreAddr) : State :=
  match (s.core c).st with
  | .run | .barrier => s.modCore c fun k => { k with st := .fenced, fill := false }
  | .stopped => if (s.core c).failFence then s.modCore c fun k => { k with st := .fenced, failFence := false } else s
  | _ => s

/-- Fences every local core of a launch for stop; the launch ends with `st` unless a status was met before. -/
def State.endLaunch (s : State) (l : Launch) (st : BitVec 8) : State :=
  let s := s.modLaunch l.ring l.idx fun l => { l with status := some (l.status.getD st) }
  let s := (s.launchSlots l).foldl (fun s g => s.setFld (rSgStat g) 60 4 3) s
  l.locals.foldl State.fenceCore s

/-- As `endLaunch` for the launch of a core, if it runs one. -/
def State.endLaunchOf (s : State) (c : CoreAddr) (st : BitVec 8) : State :=
  match s.launchOf c with
  | some l => s.endLaunch l st
  | none => s

/-! ## Exceptions -/

/-- Exception codes (Table 4.19). -/
def xcIllegal : BitVec 8 := 1
def xcCodeBound : BitVec 8 := 2
def xcSpanMark : BitVec 8 := 3
def xcAlign : BitVec 8 := 4
def xcAddress : BitVec 8 := 5
def xcFormat : BitVec 8 := 6
def xcMode : BitVec 8 := 7
def xcAnchor : BitVec 8 := 8
def xcToken : BitVec 8 := 9
def xcTile : BitVec 8 := 10
def xcRemote : BitVec 8 := 11

/-- Records an exception: the first is held, later ones count in MORE (R170, Tables 4.20, 4.21). -/
def Core.recordExc (k : Core) (e : ExcRec) : Core :=
  if bit k.faultReg 63 then { k with faultReg := bumpHold k.faultReg 32 8 }
  else
    { k with
      exc := e.exc
      faultAddr := e.addr
      faultReg := setField (setField (setField (setField (setField (setField 0 63 1 1) 62 1 (if e.deferred then 1 else 0))
        59 3 e.slot.toNat) 48 8 e.status.toNat) 40 8 e.exc.toNat) 0 16 e.bundle.toNat }

/-- A core enters FAULT; its launch's other local cores are fenced for stop, and the launch ends with the recorded
status (R185). -/
def State.enterFault (s : State) (c : CoreAddr) : State :=
  let s := s.modCore c fun k => { k with st := .fault, pend := none, faultAt := s.ftc, fill := false }
  (s.endLaunchOf c (BitVec.ofNat 8 (fieldN (s.core c).faultReg 48 8))).settle

/-- An exception detected at issue (R167): the bundle at PC does not issue. -/
def State.precise (s : State) (c : CoreAddr) (slot : BitVec 3) (exc : BitVec 8) (addr : Word) : State :=
  (s.modCore c fun k => k.recordExc ⟨false, slot, stConfig, exc, k.pc, addr⟩).enterFault c

/-- An exception detected after issue (R168): the core issues no further bundle, and enters FAULT once its operations
have drained. -/
def State.deferred (s : State) (c : CoreAddr) (slot : BitVec 3) (bundle : BitVec 16) (exc status : BitVec 8) (addr : Word) :
    State :=
  s.modCore c fun k =>
    let e : ExcRec := ⟨true, slot, status, exc, bundle, addr⟩
    { k.recordExc e with pend := match k.pend with | some p => some p | none => some e }

/-- Adds `n` to a token counter; past 65,535 the counter stays there and the core takes TOKEN_OVERFLOW (R98, R102),
recorded as deferred with `bundle` (R169). -/
def State.signalQ (s : State) (c : CoreAddr) (q n : Nat) (slot : BitVec 3) (bundle : BitVec 16) : State :=
  let v := ((s.core c).getQ q).toNat + n
  if v < 0x10000 then s.modCore c fun k => k.setQ q (BitVec.ofNat 16 v)
  else (s.modCore c fun k => k.setQ q 0xFFFF).deferred c slot bundle xcToken stConfig 0

/-- Signals the counter that a field Q names (R124): 0b1_nnnn names qn, 0 none. -/
def State.signalField (s : State) (c : CoreAddr) (q : BitVec 5) (slot : BitVec 3) (bundle : BitVec 16) : State :=
  if q.getLsbD 4 then s.signalQ c (q.toNat % 16) 1 slot bundle else s

/-! ## Resets in progress (Table 13.2) -/

/-- The target field of RST_STAT and of RESET_DONE (R549). -/
def resetTarget : Domain → Nat
  | .context n => n.val
  | .core c => (packCore c).toNat
  | .cluster p c => p.val * 128 + c.val * 8
  | .partEngine p _ => p.val * 128
  | .dieEngine d _ => if d = 0 then 0x1FE else 0x1FF
  | .partition p => p.val * 128
  | .package => 0

/-- The kind field of RESET_DONE (R549). -/
def resetKind : Domain → Nat
  | .core _ => 1 | .cluster _ _ => 2 | .partition _ => 3 | .partEngine _ _ => 4 | .dieEngine _ _ => 4
  | .context _ => 5 | .package => 6

/-- A domain lies inside another or is it (R445). The contexts lie inside the package (DEDUCED, log entry 40). -/
def domWithin (a b : Domain) : Bool :=
  match a, b with
  | _, .package => true
  | .context n, .context m => n == m
  | .core c, .core d => c == d
  | .core c, .cluster p k => c.p == p && c.c == k
  | .core c, .partition p => c.p == p
  | .cluster p k, .cluster q l => p == q && k == l
  | .cluster p _, .partition q => p == q
  | .partEngine p u, .partEngine q v => p == q && u == v
  | .partEngine p _, .partition q => p == q
  | .dieEngine d u, .dieEngine e v => d == e && u == v
  | .partition p, .partition q => p == q
  | _, _ => false

/-- The partition whose RST registers show a reset. -/
def domPart : Domain → Option (Fin 4)
  | .core c => some c.p
  | .cluster p _ | .partEngine p _ | .partition p => some p
  | _ => none

/-- Budgets of Table 13.1, in nanoseconds. -/
def domBudget : Domain → Nat
  | .context _ => 2000000
  | .core _ | .cluster _ _ | .partEngine _ _ | .dieEngine _ _ => 10000000
  | .partition _ => 100000000
  | .package => 1000000000

/-- Shows a reset's step in RST_STAT. -/
def State.showStep (s : State) (d : Domain) (step : Nat) : State :=
  match domPart d with
  | some p => s.modReg (rRstStat p) fun x =>
      setField (setField (setField (setField x 63 1 1) 60 3 (resetKind d)) 56 4 step) 47 9 (resetTarget d)
  | none => s

/-- Whether a reset of the domain, or of one that contains it, is in progress (R448). -/
def State.resetting (s : State) (f : Domain → Bool) : Bool := s.resets.any fun j => f j.dom

/-- Starts a reset, whose FENCE is at once: it stands at DRAIN. -/
def State.addReset (s : State) (d : Domain) (fail hold : Bool) : State :=
  { (s.showStep d 3) with resets := s.resets ++
      [{ dom := d, step := 3, hold := hold, held := false, dump := false, start := s.now, dumpTime := 0, fail := fail }] }

/-! ## Fences for failure (R19 to R21, R453, R454) -/

/-- Binds the spare of a cluster to a failed logical core (R19), or unmaps it (R20); the failed physical core is out of
service in either case. -/
def failMap (m : Word) (k : Nat) : Word :=
  let phys := fieldN m (4 * k) 4
  let spare := fieldN m 44 4
  let m := setBit m (48 + phys) true
  if spare = 15 then setField (setBit m (32 + k) true) (4 * k) 4 15
  else setField (setField m (4 * k) 4 spare) 44 4 15

/-- Writes the map of a cluster into the older copy of the core-map store, which becomes the newer one (R431). -/
def State.storeMap (s : State) (p : Fin 4) (c : Fin 12) : State :=
  let n := s.sys.nv
  let put := fun (m : Map Word) => mput (fun _ => 0) m (clusterIdx p c) (s.reg (rCmap p c.val))
  let n := if n.seq0 < n.seq1 then { n with maps0 := put n.maps1, seq0 := n.seq1 + 1 } else { n with maps1 := put n.maps0, seq1 := n.seq0 + 1 }
  { s with sys := { s.sys with nv := n } }

/-- The logical core after its fence for failure: bound to the spare, STOPPED until its replay (R30), with its launch,
group, code region and limits kept for it (R192); its number of operations goes on, so that an operation of the failed
core is never taken for one of the spare. -/
def Core.spared (k : Core) : Core :=
  { Core.reset with
    floor := k.floor, beatLim := k.beatLim, code := k.code, launch := k.launch, group := k.group, ctx := k.ctx
    spanIdx := k.spanIdx, span := k.span, nextId := k.nextId, failFence := true, atLaunch := k.atLaunch, limitUsed := k.limitUsed }

/-- The record of a core's store that enters the newest span (R186). -/
def CoreStore.newest (k : CoreStore) : Option SpanRec :=
  match k.rec0.valid, k.rec1.valid with
  | true, true => if k.rec0.span.toNat < k.rec1.span.toNat then some k.rec1 else some k.rec0
  | true, false => some k.rec0
  | false, true => some k.rec1
  | false, false => none

/-- Fences a core for failure and starts its reset. A core of a launch that cannot be replayed ends the launch with
FENCED (R195); one that can awaits SPARE_REPLAY. -/
def State.failCore (s : State) (c : CoreAddr) : State :=
  match s.phys c with
  | none => s
  | some _ =>
    let k := s.core c
    let a := rCmap c.p c.c.val
    let spare := s.fld a 44 4
    let lost := k.unreplayable || (s.store c).newest.isNone
    let s := (s.modReg a fun m => failMap m c.k.val).storeMap c.p c.c
    let s := if s.resetting fun d => domWithin (.core c) d then s else s.addReset (.core c) true false
    let s := if spare = 15 then s.event 2 (packCore c).toNat
      else s.event 1 ((packCore c).toNat + spare * 512)
    if spare = 15 then
      ((s.setCore c { k with st := .fenced, failFence := true, flights := [], pend := none }).endLaunchOf c stFenced).settle
    else if k.launch.isSome && !lost then
      let s := s.setCore c k.spared
      match s.launchOf c with
      | some _ => s.setFld (rSgStat k.group) 60 4 2
      | none => s
    else if k.launch.isSome then
      ((s.setCore c { k.spared with st := .fenced, failFence := false }).endLaunchOf c stFenced).settle
    else s.setCore c { k.spared with failFence := false }

end Sys2Proof.Machine
end

