-- ==== Sys2Proof/Machine/Route.lean ====
section
/-! DEFINITION. Packets and routes of the Tensor Fabric (R260 to R286, R295 to R298, R305, R306): headers and HCRC,
coordinates, dimension-order routing, ports of a link group, the endpoint table, multicast trees. -/

namespace Sys2Proof.Machine

/-! ## Headers (Table 8.4) -/

def boolN (b : Bool) (i : Nat) : Nat := if b then 2 ^ i else 0

/-- Header bits [479:0]. -/
def headerBits (p : Packet) : BitVec 480 :=
  BitVec.ofNat 480
    (p.typ.toNat + p.tc.toNat <<< 4 + boolN p.dl 6 + boolN p.ph 7 + boolN p.bank 8 + boolN p.pen 9 + boolN p.trk 10
      + boolN p.det 11 + boolN p.min 12 + boolN p.mc 13 + boolN p.rty 14 + p.dstEp.toNat <<< 16 + p.srcEp.toNat <<< 48
      + p.dstCoord.toNat <<< 80 + p.midCoord.toNat <<< 96 + p.dhint.toNat <<< 112 + p.offset.toNat <<< 128
      + p.stream.toNat <<< 176 + p.epoch.toNat <<< 192 + p.pcount.toNat <<< 200 + p.rq.toNat <<< 224 + p.core.toNat <<< 229
      + p.rgen.toNat <<< 256 + p.seq.toNat <<< 272 + p.tag.toNat <<< 288 + p.data8.toNat <<< 320 + p.mask.toNat <<< 384
      + p.status.toNat <<< 448 + p.coll.toNat <<< 456)

/-- HCRC of a header: CRC-32C of its bits [479:0]. -/
def hcrcOf (p : Packet) : BitVec 32 := crc32c (bytesOf 480 (headerBits p) 60)

/-- The header check of R273. -/
def headerOk (p : Packet) : Bool := decide (hcrcOf p = p.hcrc)

/-- The packet with its HCRC. -/
def sealed (p : Packet) : Packet := { p with hcrc := hcrcOf p }

/-- Flits of a packet: its header, and its payload in units of 64 bytes (R266, R270). -/
def packetFlits (p : Packet) : Nat :=
  match p.payload with
  | .none => 1
  | .tile _ => 67
  | .wide _ => 41
  | .f32p _ => 33
  | .rows r => 1 + r.length

def isRequest (t : BitVec 4) : Bool := decide (1 ≤ t.toNat ∧ t.toNat ≤ 9)

/-! ## Coordinates (R271) -/

/-- A coordinate on the three axes. -/
structure Coord where
  x : Nat
  y : Nat
  z : Nat
deriving DecidableEq, Repr

def coordOf (c : BitVec 15) : Coord := ⟨c.toNat % 16, c.toNat / 16 % 16, c.toNat / 256⟩

def packCoord (c : Coord) : BitVec 15 := BitVec.ofNat 15 (c.x % 16 + c.y % 16 * 16 + c.z % 128 * 256)

/-- The system extents (Table 8.19). -/
def State.extents (s : State) : Coord :=
  let g := s.reg rGeom
  ⟨fieldN g 60 4 + 1, fieldN g 56 4 + 1, fieldN g 49 7 + 1⟩

/-- This package's coordinate. -/
def State.coord (s : State) : Coord := coordOf (BitVec.ofNat 15 (s.fld rGeom 0 15))

/-- One axis of dimension-order routing (R285): the shorter way from `a` to `b`, + on a tie; none when there. True is +. -/
def axisDir (a b ext : Nat) : Option Bool :=
  if a % ext = b % ext then none
  else
    let up := (b + ext - a % ext) % ext
    let dn := (a + ext - b % ext) % ext
    some (decide (up ≤ dn))

/-- The direction of the next hop toward `t`, coded as ROLE of Table 8.24: 0 X+, 1 X-, 2 Y+, 3 Y-, 4 Z+, 5 Z- (R285). -/
def nextDir (ext c t : Coord) : Option Nat :=
  match axisDir c.x t.x ext.x with
  | some b => some (if b then 0 else 1)
  | none => match axisDir c.y t.y ext.y with
    | some b => some (if b then 2 else 3)
    | none => (axisDir c.z t.z ext.z).map fun b => if b then 4 else 5

/-- The coordinate and extent on the axis of a direction. -/
def axisOf (d : Nat) (c : Coord) : Nat := if d / 2 = 0 then c.x else if d / 2 = 1 then c.y else c.z

/-- A hop in direction `d` from `c` crosses the dateline of its axis (R275). -/
def crossesDateline (ext c : Coord) (d : Nat) : Bool :=
  if d % 2 = 0 then decide (axisOf d c + 1 = axisOf d ext) else decide (axisOf d c = 0)

/-- The neighbour one hop away. -/
def neighbour (ext c : Coord) (d : Nat) : Coord :=
  let mv := fun v e => if d % 2 = 0 then (v + 1) % e else (v + e - 1) % e
  if d / 2 = 0 then { c with x := mv c.x ext.x } else if d / 2 = 1 then { c with y := mv c.y ext.y }
  else { c with z := mv c.z ext.z }

/-- Differs on exactly one axis, by one step (R274). -/
def oneStep (ext a b : Coord) : Bool := (List.range 6).any fun d => neighbour ext a d == b && a != b

/-! ## Ports -/

def portStateDark : Nat := 0
def portStateTraining : Nat := 1
def portStateUp : Nat := 2
def portStateFailed : Nat := 3
def portStateDraining : Nat := 4

def State.portState (s : State) (n : Nat) : Nat := s.fld (rPort n) 60 4

def State.portUp (s : State) (n : Nat) : Bool := s.portState n == portStateUp

def State.port (s : State) (n : Nat) : Port := mget (fun _ => Port.reset) s.fab.ports n

def State.setPort (s : State) (n : Nat) (p : Port) : State :=
  { s with fab := { s.fab with ports := mput (fun _ => Port.reset) s.fab.ports n p } }

/-- The up ports of the link group of a direction, in ascending index (R260, R286). -/
def State.groupUp (s : State) (dir : Nat) : List Nat :=
  (List.range 36).filter fun n => portRole n == dir && s.portUp n

/-- The port that a packet takes in a direction: entry SEQ mod n of the group's up ports on its home die, or of all of
them where the home die has none (R286). -/
def State.choosePort (s : State) (dir home : Nat) (seq : BitVec 16) : Option Nat :=
  let up := s.groupUp dir
  let near := up.filter fun n => n / 18 == home
  let l := if near.isEmpty then up else near
  if l.isEmpty then none else some (l.getD (seq.toNat % l.length) 0)

/-! ## The endpoint table (R277 to R280, R298) -/

/-- Key of an entry in one half's copy. -/
def eptKey (die : Nat) (bank : Bool) (ep : Nat) : Nat := die * 0x100000 + (if bank then 0x80000 else 0) + ep

/-- The copy of an entry that a half uses: its own if intact, else the other's (R475). -/
def State.eptRaw (s : State) (die : Nat) (bank : Bool) (ep : Nat) : Word :=
  let k := eptKey die bank ep
  if mget (fun _ => false) s.fab.eptBad k then mget (fun _ => 0) s.fab.ept (eptKey (1 - die) bank ep)
  else mget (fun _ => 0) s.fab.ept k

/-- The entry as it acts: one that table divergence has invalidated acts as not valid (R475). -/
def State.ept (s : State) (die : Nat) (bank : Bool) (ep : Nat) : Word :=
  if mget (fun _ => false) s.fab.eptDiv ((if bank then 0x80000 else 0) + ep) then 0 else s.eptRaw die bank ep

def eValid (e : Word) : Bool := bit e 63
def eCoord (e : Word) : BitVec 15 := field e 48 15
def eLep (e : Word) : Nat := fieldN e 42 6
def eSlice (e : Word) : Nat := fieldN e 30 12
def eMct (e : Word) : Bool := bit e 26
def eDhint (e : Word) : BitVec 3 := field e 23 3
def eSvc (e : Word) : Bool := bit e 22
def eSport (e : Word) : Nat := fieldN e 19 3

/-- The entry accepts the class (Table 8.6). -/
def eAccepts (e : Word) (tc : BitVec 2) : Bool :=
  if tc = tcTensor then bit e 29 else if tc = tcColl then bit e 28 else if tc = tcControl then bit e 27 else false

/-- The checks of R279 on the two entries. -/
def entriesOk (src dst : Word) (tc : BitVec 2) : Bool :=
  eValid src && eValid dst && eSlice src == eSlice dst && eAccepts dst tc

/-- The active bank (R300). -/
def State.bank (s : State) : Bool := s.rbit rBankCtl 63

/-- The ID of a local endpoint in a bank (Table 8.23). -/
def State.lepId (s : State) (bank : Bool) (n : Nat) : Option (BitVec 19) :=
  let r := s.reg (rLepId n)
  if bank then (if bit r 31 then some (field r 0 19) else none) else (if bit r 63 then some (field r 32 19) else none)

/-- The source local endpoint of a context (Table 8.22); none where SRC_LEP is 0. -/
def State.srcLep (s : State) (ctx : Nat) : Option Nat :=
  let n := s.fld (rCtxBox ctx) 41 6
  if n = 0 then none else some n

/-! ## Generations (R450 to R452) -/

/-- Number of a generation domain: cores 0 to 383, 384 + partition, 400 + context, 416 package. -/
def domPartition (p : Fin 4) : Nat := 384 + p.val
def domContext (n : Nat) : Nat := 400 + n
def domPackage : Nat := 416

/-- The present generation of a domain. -/
def State.gen (s : State) (d : Nat) : BitVec 16 :=
  if d < 384 then BitVec.ofNat 16 (s.fld (rRstCgen (coreOfIdx d).p (d % 96)) 0 16)
  else if d < 388 then BitVec.ofNat 16 (s.fld (rRstGen ⟨(d - 384) % 4, by omega⟩) 48 16)
  else if d < 416 then BitVec.ofNat 16 (s.fld (rMgtGenCtx (d - 400)) 0 16)
  else BitVec.ofNat 16 (s.fld rMgtRst 0 16)

/-- Increments a generation (GEN of Table 13.2). -/
def State.bumpGen (s : State) (d : Nat) : State :=
  if d < 384 then s.modReg (rRstCgen (coreOfIdx d).p (d % 96)) fun x => bumpWrap x 0 16
  else if d < 388 then s.modReg (rRstGen ⟨(d - 384) % 4, by omega⟩) fun x => bumpWrap x 48 16
  else if d < 416 then s.modReg (rMgtGenCtx (d - 400)) fun x => bumpWrap x 0 16
  else s.modReg rMgtRst fun x => bumpWrap x 0 16

/-- The partition whose RST_GEN counts for a domain; the package's and contexts' count at partition 0. -/
def domOwner (d : Nat) : Fin 4 :=
  if d < 384 then (coreOfIdx d).p else if d < 388 then ⟨(d - 384) % 4, by omega⟩ else 0

/-! ## Seeded Valiant routing (R274, R283) -/

def routeHash (seed : Word) (src dst : BitVec 19) (seq : BitVec 16) : Word :=
  mix (seed ^^^ mix ((src.setWidth 64 <<< 40) ||| (dst.setWidth 64 <<< 16) ||| seq.setWidth 64))

/-- The route box in force for a context: base and extents, no larger than the system. A context that runs no launch has the
whole system (R283). -/
def State.routeBox (s : State) (ctx : Nat) : Coord × Coord :=
  let e := s.extents
  if s.launches.any fun l => l.ctx.val == ctx then
    let b := s.reg (rCtxBox ctx)
    (coordOf (field b 0 15),
      ⟨Nat.min (fieldN b 60 4 + 1) e.x, Nat.min (fieldN b 56 4 + 1) e.y, Nat.min (fieldN b 49 7 + 1) e.z⟩)
  else (⟨0, 0, 0⟩, e)

/-- The route seed in force: 0 for a context that runs no launch (R283). -/
def State.routeSeed (s : State) (ctx : Nat) : Word :=
  if s.launches.any fun l => l.ctx.val == ctx then s.reg (rCtxSeed ctx) else 0

/-- The intermediate coordinate of a Valiant packet. -/
def State.midCoord (s : State) (ctx : Nat) (src dst : BitVec 19) (seq : BitVec 16) : Coord :=
  let e := s.extents
  let h := routeHash (s.routeSeed ctx) src dst seq
  let (o, b) := s.routeBox ctx
  ⟨(o.x + fieldN h 0 16 % b.x) % e.x, (o.y + fieldN h 16 16 % b.y) % e.y, (o.z + fieldN h 32 16 % b.z) % e.z⟩

/-! ## The next hop -/

/-- What a router does with a packet. -/
inductive Hop where
  /-- this package is its destination -/
  | here (p : Packet)
  /-- out by a port, with DL, PH and DET as the hop needs them -/
  | out (port : Nat) (p : Packet)
  /-- no port up in its direction and no usable detour (R306) -/
  | lost
deriving DecidableEq, Repr

/-- The way out in direction `d`: a port of that group, or else one detour hop in the direction DHINT (R286, R306). The
packet has the DL bit of the hop (R275); `axis` is the axis it arrived on, none at its source. -/
def State.leave (s : State) (home : Nat) (axis : Option Nat) (d : Nat) (p : Packet) : Option (Nat × Packet) :=
  let ext := s.extents
  let me := s.coord
  let send := fun d (p : Packet) =>
    let dl := if axis = some (d / 2) then p.dl else false
    sealed { p with dl := dl || crossesDateline ext me d }
  match s.choosePort d home p.seq with
  | some n => some (n, send d p)
  | none =>
    let h := p.dhint.toNat
    if p.det ∨ h = 0 ∨ h = 7 ∨ (h - 1) / 2 = d / 2 then none
    else (s.choosePort (h - 1) home p.seq).map fun n => (n, send (h - 1) { p with det := true })

/-- The hop of a packet at this router (R275, R285, R286, R306). -/
def State.hop (s : State) (home : Nat) (axis : Option Nat) (p : Packet) : Hop :=
  let me := s.coord
  let p := if !p.ph && coordOf p.midCoord == me then { p with ph := true, dl := false } else p
  let target := if p.ph then coordOf p.dstCoord else coordOf p.midCoord
  match nextDir s.extents me target with
  | none => .here (sealed p)
  | some d => match s.leave home axis d p with
    | some (n, p) => .out n p
    | none => .lost

/-- The queue of a packet at a port: TC x 4 + VC (Table 8.3, R275). -/
def packetQueue (p : Packet) : Nat := p.tc.toNat * 4 + (if p.ph then 2 else 0) + (if p.dl then 1 else 0)

/-- Credits held for a queue of a port's peer (R269). -/
def Port.credit (x : Port) (q : Nat) : Nat := mget (fun _ => 256) x.credits q

/-- The port can take the packet: credits for the whole packet, and free replay entries (R267, R269). -/
def State.portTakes (s : State) (n : Nat) (p : Packet) : Bool :=
  let x := s.port n
  decide (packetFlits p ≤ x.credit (packetQueue p)) && decide (x.replay.length + (packetFlits p + 3) / 4 ≤ 240)

/-- The blocks of a packet in the replay buffer: the packet ends in the last of them. -/
def txBlocks (seq : BitVec 16) (p : Packet) : List TxBlock :=
  let n := (packetFlits p + 3) / 4
  (List.range n).map fun i =>
    { seq := seq + BitVec.ofNat 16 i, last := if i + 1 = n then some p else none, sends := 1 }

/-- Sends a packet on a port: it takes credits and stays in the replay buffer until acknowledged (R267, R269). -/
def State.sendOn (s : State) (n : Nat) (p : Packet) : State :=
  let x := s.port n
  let q := packetQueue p
  let b := txBlocks x.txSeq p
  let x := { x with
    txSeq := x.txSeq + BitVec.ofNat 16 b.length
    replay := x.replay ++ b
    ackAt := if x.replay.isEmpty then s.now else x.ackAt
    credits := mput (fun _ => 256) x.credits q (x.credit q - packetFlits p) }
  ((s.setPort n x).count (72 + 2 * n) (64 * packetFlits p)).emit (.packet n p)

/-- The port number that stands for a packet of this package to itself: 36 and the home die. -/
def loopPort (home : Nat) : Nat := 36 + home

/-! ## Responses (R272, R274, R298, R299) -/

/-- Adds to ORIG or TERM of a bank, modulo 2^32 (R299). -/
def State.addOrig (s : State) (bank : Bool) (n : Nat) : State :=
  s.modReg (rBankCnt bank) fun x => setField x 32 32 (fieldN x 32 32 + n)

def State.addTerm (s : State) (bank : Bool) (n : Nat) : State :=
  s.modReg (rBankCnt bank) fun x => setField x 0 32 (fieldN x 0 32 + n)

/-- The port of service port SPORT (Table 8.6): N15, N16, N17, S15, S16, S17. -/
def servicePort (n : Nat) : Nat := n % 6 / 3 * 18 + 15 + n % 3

/-- A packet at its destination package: one to a service endpoint leaves through its service port (R282), where a response
closes its request (R299); any other comes out to the ingress of this package (log entry 29). -/
def State.deliver (s : State) (home : Nat) (p : Packet) : State :=
  let e := s.ept home p.bank p.dstEp.toNat
  if eSvc e then
    let s := s.sendOn (servicePort (eSport e)) p
    if isRequest p.typ then s else s.addTerm p.bank 1
  else s.emit (.packet (loopPort home) p)

/-- A response to a request, routed minimally in the control class with the bank of its request. -/
def responseTo (req : Packet) (typ : BitVec 4) (status : BitVec 8) (data8 : Word) (payload : Payload) : Packet :=
  { blankPacket with
    typ := typ, tc := tcControl, bank := req.bank, ph := true, min := true, dstEp := req.srcEp, srcEp := req.dstEp
    offset := req.offset, rgen := req.rgen, seq := req.seq, tag := req.tag, data8 := data8, status := status
    payload := payload }

/-- Sends a response. One whose destination has no entry in the bank is not sent (R298). -/
def State.respond (s : State) (port : Nat) (resp : Packet) : State :=
  let home := if port < 36 then port / 18 else port % 2
  let e := s.ept home resp.bank resp.dstEp.toNat
  if eValid e then
    let p := { resp with dstCoord := eCoord e, midCoord := eCoord e, dhint := eDhint e }
    match s.hop home none p with
    | .here p => s.deliver home p
    | .out n p => s.sendOn n p
    | .lost => s
  else s

/-- An ACK, or a NACK with a status, to a request. -/
def State.answer (s : State) (port : Nat) (req : Packet) (st : BitVec 8) : State :=
  s.respond port (responseTo req (if st = 0 then ptAck else ptNack) st 0 .none)

/-! ## Multicast (R295 to R297). The mode of MSEND travels in COLL bit 0 (DESIGN CHOICE, log entry 13). -/

/-- The member packages of a mask, with the mask bit of each. -/
def mcastMembers (ext base : Coord) (rowcol : Bool) (mask : Word) : List (Nat × Coord) :=
  if rowcol then
    (List.range 16).filterMap fun i =>
      if bit mask i then
        some (i, if bit mask 16 then { base with y := (base.y + i) % ext.y } else { base with x := (base.x + i) % ext.x })
      else none
  else
    (List.range 64).filterMap fun i =>
      if bit mask i then
        some (i, ⟨(base.x + i % 4) % ext.x, (base.y + i / 4 % 4) % ext.y, (base.z + i / 16) % ext.z⟩)
      else none

/-- No two members are one package (R295). -/
def distinctCoords : List (Nat × Coord) → Bool
  | [] => true
  | (_, c) :: r => r.all (fun e => e.2 != c) && distinctCoords r

/-- The replicas of a multicast packet at a router: one for each direction that has members beyond it, with the mask of
those members only, and whether this package is a member (R297). -/
def mcastSplit (ext me : Coord) (p : Packet) : Bool × List (Nat × Packet) :=
  let base := coordOf p.dstCoord
  let rc := p.coll.getLsbD 0
  let ms := mcastMembers ext base rc p.mask
  let keep := fun (d : Option Nat) => ms.foldl (fun (m : Word) e => if nextDir ext me e.2 = d then setBit m e.1 true else m)
    (if rc then setBit 0 16 (bit p.mask 16) else 0)
  ((ms.any fun e => e.2 == me),
    (List.range 6).filterMap fun d =>
      if ms.any fun e => nextDir ext me e.2 = some d then some (d, { p with mask := keep (some d) }) else none)

end Sys2Proof.Machine
end

