-- ==== Sys2Proof/Machine/Translate.lean ====
section
/-! DEFINITION. Context addresses and page tables (R206 to R211, R548), and who may reach a physical address (R28 to R31,
R238). -/

namespace Sys2Proof.Machine

/-! ## Page-table entries (Table 6.2) -/

def pteV (e : Word) : Bool := bit e 63
def pteLeaf (e : Word) : Bool := bit e 62
def pteW (e : Word) : Bool := bit e 61
def pteR (e : Word) : Bool := bit e 60
def pteAddr (e : Word) : Nat := fieldN e 12 36 * 4096
def pteReserved (e : Word) : Bool := decide (fieldN e 48 12 ≠ 0 ∨ fieldN e 0 12 ≠ 0)

/-- Size of a page in bytes. -/
def pageSize (big : Bool) : Nat := if big then 0x40000000 else 0x200000

/-- A table of `n` bytes lies wholly in an HBM tile area or a reservoir (R208). -/
def tableOk (a n : Nat) : Bool := everyPlace Place.tableArea a n

/-- The place lies in an HBM stack whose STATE reads failed (R481). -/
def State.failedStack (s : State) (pl : Place) : Bool :=
  match pl with
  | .hbm p n => s.fld (rHbmStat p n) 0 4 == 4
  | _ => false

/-- A read of a failed stack is served as uncorrectable, and counted (R229, R481). -/
def State.countUncorr (s : State) (pl : Place) : State :=
  match pl with
  | .hbm p n => if s.failedStack pl then s.bump (rHbmEcc p n) 16 16 else s
  | _ => s

/-- The walk of R208 to the leaf entry: whether it maps 1 GiB, and the entry; or a cause of failure, with the place whose read
was answered as uncorrectable. `bad` says which places' reads are. -/
def walk (m : Mem) (bad : Place → Bool) (root : Word) (ca : Nat) : Except (Nat × Option Place) (Bool × Word) :=
  if !bit root 63 then .error (xNotMapped, none)
  else
    let base := fieldN root 21 27 * 0x200000
    if !tableOk base 0x200000 then .error (xWalkErr, none)
    else if bad (placeOf base) then .error (xWalkErr, some (placeOf base))
    else
      let e := BitVec.ofNat 64 (m.num (base + ca / 0x40000000 * 8) 8)
      if !pteV e || pteReserved e then .error (xNotMapped, none)
      else if pteLeaf e then .ok (true, e)
      else if !tableOk (pteAddr e) 4096 then .error (xWalkErr, none)
      else if bad (placeOf (pteAddr e)) then .error (xWalkErr, some (placeOf (pteAddr e)))
      else
        let e2 := BitVec.ofNat 64 (m.num (pteAddr e + ca / 0x200000 % 512 * 8) 8)
        if !pteV e2 || !pteLeaf e2 || pteReserved e2 then .error (xNotMapped, none) else .ok (false, e2)

/-- The checks of R208 on a leaf entry, and the physical address. -/
def leafAddr (big : Bool) (e : Word) (ca : Nat) (write : Bool) : Except Nat Nat :=
  let sz := pageSize big
  if pteAddr e % sz ≠ 0 then .error xNotMapped
  else if !everyPlace Place.mappable (pteAddr e) sz then .error xBadTarget
  else if write && !pteW e then .error xNoWrite
  else if !write && !pteR e then .error xNoRead
  else .ok (pteAddr e + ca % sz)

/-- A translation: the state it leaves, and the physical address or the cause of its failure. -/
structure Xlated where
  s : State
  pa : Except Nat Nat

/-- The cached entry of an address. -/
def tlbFind (t : List TlbEntry) (ctx ca : Nat) : Option TlbEntry :=
  t.find? fun e => e.ctx == ctx && e.page == ca / pageSize e.big

/-- Caches a leaf entry; a full cache of 2,048 entries gives up an entry that the manual does not define (R209). -/
def State.tlbAdd (s : State) (p : Fin 4) (ctx ca : Nat) (big : Bool) (e : Word) : State :=
  let t := (s.part p).tlb
  let t' := t.filter fun x => !(x.ctx == ctx && x.page == ca / pageSize x.big)
  let new : TlbEntry := ⟨ctx, ca / pageSize big, big, e⟩
  if t'.length < 2048 then s.modPart p fun x => { x with tlb := new :: t' }
  else (s.modPart p fun x => { x with tlb := new :: t'.eraseIdx (Config.victim s.freeCtr % 2048) }).draw

/-- Translates in partition `p` under the root of context `ctx` (R208, R548). A cached entry that the tables no longer
hold may still be used (R209). A failure is latched (R211). -/
def State.translate (s : State) (p : Fin 4) (ctx : Nat) (ca : Word) (write : Bool) : Xlated :=
  let fail := fun (s : State) cause => Xlated.mk (s.xlateErr p cause ctx ca.toNat) (.error cause)
  let failWalk := fun (s : State) (c : Nat × Option Place) => fail ((c.2.map s.countUncorr).getD s) c.1
  if 2 ^ 48 ≤ ca.toNat then fail s xNotMapped
  else
    let a := ca.toNat
    let use := fun (s : State) big e => match leafAddr big e a write with
      | .ok pa => Xlated.mk s (.ok pa)
      | .error c => fail s c
    let w := walk s.mem s.failedStack (s.reg (rPtRoot p ctx)) a
    match tlbFind (s.part p).tlb ctx a with
    | none => match w with
      | .ok (big, e) => use (s.tlbAdd p ctx a big e) big e
      | .error c => failWalk s c
    | some t =>
      let fresh := match w with
        | .ok (big, e) => big == t.big && e == t.entry
        | .error _ => false
      if fresh then use s t.big t.entry
      else if Config.useCached s.freeCtr then use s.draw t.big t.entry
      else match w with
        | .ok (big, e) => use (s.draw.tlbAdd p ctx a big e) big e
        | .error c => failWalk s.draw c

/-! ## Who reaches what (R29, R30, R31) -/

/-- A party inside the package that makes a request to physical memory. -/
inductive Party where
  | core (c : CoreAddr)
  | app (a : AppCore)
  | mgmt
  | engine
deriving DecidableEq, Repr

/-- The place admits the party (R30): others than the core itself, the management cores and, while the core is STOPPED,
the application cores of its partition are refused as for a reserved address. -/
def State.admits (s : State) (who : Party) (pl : Place) : Bool :=
  match pl with
  | .hbm _ _ | .reservoir _ | .cluster _ _ | .host _ _ => true
  | .coreLocal c _ => match who with
    | .core d => c == d
    | .app a => a.p == c.p && (s.core c).st == .stopped
    | .mgmt => true
    | .engine => false
  | _ => false

/-- The location is in the memory of a scope of core `c` (Table 7.1). -/
def inScope (sc : Nat) (c : CoreAddr) (pl : Place) : Bool :=
  if 3 ≤ sc then true
  else match pl with
    | .coreLocal d _ => d == c
    | .cluster p k => (decide (1 ≤ sc) && p == c.p && k == c.c.val) || (decide (2 ≤ sc) && p == c.p)
    | .reservoir p | .hbm p _ => decide (2 ≤ sc) && p == c.p
    | _ => false

/-- Translates every one of `n` consecutive tiles for a party; the first tile that fails, or whose place does not admit the
party (R29, R30), ends it and is reported by its context address. -/
def State.translateTiles (s : State) (who : Party) (p : Fin 4) (ctx : Nat) (ca : Word) (write : Bool) :
    Nat → State × Except Word (List Nat)
  | 0 => (s, .ok [])
  | n + 1 =>
    let x := s.translate p ctx ca write
    match x.pa with
    | .error _ => (x.s, .error ca)
    | .ok pa =>
      if !x.s.admits who (placeOf pa) then (x.s.xlateErr p xReserved ctx pa, .error ca)
      else
        let (s', r) := x.s.translateTiles who p ctx (ca + 4096) write n
        (s', match r with | .ok l => .ok (pa :: l) | .error c => .error c)

end Sys2Proof.Machine
end

