-- ==== Sys2Proof/Machine/Poc.lean ====
section
/-! DEFINITION. Operations at the points of coherence (R218 to R225, R235 to R246), and where the end of an operation is
reported: movers, loads and releases of cores, started commands, packets that await their response. -/

namespace Sys2Proof.Machine

/-! ## The pennant tracker of a destination (R288, R291) -/

def State.half (s : State) (d : Nat) : Half := mget (fun _ => Half.reset) s.fab.halves d

def State.setHalf (s : State) (d : Nat) (h : Half) : State :=
  { s with fab := { s.fab with halves := mput (fun _ => Half.reset) s.fab.halves d h } }

/-- The die that holds what is kept by an endpoint ID: bit 0 (R287, R288). -/
def epDie (ep : BitVec 19) : Nat := ep.toNat % 2

/-- The tracker entry is that of the packet's stream at destination local endpoint `lep`. -/
def Tracker.isFor (t : Tracker) (p : Packet) (lep : Nat) : Bool :=
  t.src == p.srcEp && t.lep.toNat == lep && t.tag == p.stream

/-- Records that a packet has taken effect: a TRK = 1 packet counts in its epoch; a pennant that is tracked or resent
completes its epoch. Epochs long past are forgotten, so that a number may come round again. -/
def Tracker.took (t : Tracker) (p : Packet) : Tracker :=
  if p.pen then
    if p.trk || p.rty then
      { t with
        done := p.epoch :: t.done.filter fun e => e != p.epoch && e != p.epoch + 128
        counts := mput (fun _ => 0) t.counts p.epoch.toNat 0
        zeroDone := t.zeroDone || p.epoch == 0 }
    else t
  else if p.trk then { t with counts := mmod (fun _ => 0) t.counts p.epoch.toNat (· + 1) }
  else t

/-- A request packet has taken effect at this destination (R291). -/
def State.tookEffect (s : State) (p : Packet) : State :=
  let lep := eLep (s.ept (epDie p.srcEp) p.bank p.dstEp.toNat)
  let h := s.half (epDie p.srcEp)
  s.setHalf (epDie p.srcEp) { h with trackers := updWhere (fun t => t.isFor p lep) (fun t => t.took p) h.trackers }

/-! ## Ends of operations -/

/-- Rewrites the flight of a core's operation. -/
def State.modFlight (s : State) (core id : Nat) (f : Flight → Flight) : State :=
  s.modCore (coreOfIdx core) fun k => { k with flights := updWhere (fun x => x.id == id) f k.flights }

/-- One tile of a mover operation is done. -/
def Flight.oneLess (x : Flight) : Flight :=
  match x.kind with
  | .mover k left sc => { x with kind := .mover k (left - 1) sc }
  | _ => x

/-- The write of a STREL is visible at its scope. -/
def Flight.released (x : Flight) : Flight :=
  match x.kind with
  | .strel a f sc d sent _ => { x with kind := .strel a f sc d sent true }
  | _ => x

def Flight.loaded (x : Flight) (v : Word) : Flight :=
  match x.kind with
  | .load rd a acq _ => { x with kind := .load rd a acq (some v) }
  | _ => x

/-- The address of a C-slot access. -/
def Flight.addr (x : Flight) : Word :=
  match x.kind with
  | .strel a _ _ _ _ _ => a
  | .load _ a _ _ => a
  | _ => 0

def State.flight (s : State) (core id : Nat) : Option Flight :=
  (s.core (coreOfIdx core)).flights.find? fun x => x.id == id

/-- One tile of a started command is done, or has failed. -/
def Cmd.oneLess (c : Cmd) : Cmd := { c with left := c.left - 1, done := c.done || c.left ≤ 1 }

/-- One tile of a started command has been copied: DETAIL counts it (Table 10.9). -/
def Cmd.copied (c : Cmd) : Cmd := { c.oneLess with detail := c.detail + 1 }

/-- A notice has been answered (R461). -/
def State.noticeDone (s : State) (seq : BitVec 16) : State :=
  { s with sys := { s.sys with notices := s.sys.notices.filter fun n => n.seq != seq } }

/-- A packet of a collective has been answered, or a result of it written: its engine takes note. -/
def State.collAnswered (s : State) (ring : Nat) (idx : BitVec 32) (kind key : Nat) (st : BitVec 8) : State :=
  let upd := fun (c : Coll) => { c with inbox := c.inbox ++ [(kind, key, st)] }
  { s with colls := updWhere (fun c => c.ring == ring && c.idx == idx) upd s.colls }

/-- An operation has been refused with a status. A core's operation ends in REMOTE_REFUSED, detected after issue (R168,
Table 4.19); a command keeps the first status met (R371); a packet is answered NACK. -/
def State.failTo (s : State) (st : BitVec 8) : Requester → State
  | .mover core id _ addr => match s.flight core id with
    | some x => (s.deferred (coreOfIdx core) 4 x.bundle xcRemote st addr).modFlight core id
        fun x => { x.oneLess with failed := true }
    | none => s
  | .note core b addr => s.deferred (coreOfIdx core) 4 b xcRemote st addr
  | .strel core id => match s.flight core id with
    | some x => (s.deferred (coreOfIdx core) 5 x.bundle xcRemote st x.addr).modFlight core id
        fun x => { x.released with failed := true }
    | none => s
  | .load core id => match s.flight core id with
    | some x => (s.deferred (coreOfIdx core) 5 x.bundle xcRemote st x.addr).modFlight core id
        fun x => { x.loaded 0 with failed := true }
    | none => s
  | .command r i => s.modCmd r i fun c => { c.oneLess with status := if c.status = 0 then st else c.status }
  | .packet port p => s.answer port p st
  | .posted => s
  | .bar _ _ => s
  | .record _ _ _ => s
  | .notice _ => s
  | .coll r i kind key => s.collAnswered r i kind key st
  | .scrub _ _ _ => s
  | .relay t _ _ => s.failTo st t
  | .relayOut t _ _ _ => s.failTo st t

/-- A write is performed, or visible at the scope its operation names (R236, R241). -/
def State.writeDone (s : State) : Requester → State
  | .mover core id _ _ => s.modFlight core id Flight.oneLess
  | .strel core id => s.modFlight core id Flight.released
  | .command r i => s.modCmd r i Cmd.copied
  | .packet port p => (s.tookEffect p).answer port p stOk
  | .record port fn v => s.emit (.msix port fn v)
  | .notice seq => s.noticeDone seq
  | .coll r i kind key => s.collAnswered r i kind key stOk
  | _ => s

/-- An 8-byte read has been served. -/
def State.read8Done (s : State) (v : Word) : Requester → State
  | .load core id => s.modFlight core id fun x => x.loaded v
  | .packet port p => (s.tookEffect p).respond port (responseTo p ptResp8 stOk v .none)
  | _ => s

/-! ## Arrival at a point of coherence -/

/-- The place lies in a domain that is fenced or being reset: the partition, its memory controller, its cluster, the
package (Table 13.2). -/
def State.fencedPlace (s : State) (pl : Place) : Bool :=
  match pl with
  | .hbm p _ | .check p _ _ | .reservoir p =>
    (s.part p).fenced || s.resetting fun d => d == .package || d == .partition p || d == .partEngine p 0 || d == .partEngine p 2
  | .cluster p c =>
    (s.part p).fenced || s.resetting fun d => d == .package || d == .partition p || d == .partEngine p 0 ||
      (match d with | .cluster q k => q == p && k.val == c | _ => false)
  | .coreLocal c _ =>
    (s.part c.p).fenced || (s.resetting fun d => d == .package || d == .partition c.p || d == .cluster c.p c.c) ||
      s.resets.any fun j => j.dom == .core c && !j.fail
  | .host port _ => s.resetting fun d => d == .package || d == .dieEngine port 1
  | _ => s.resetting fun d => d == .package

/-- An operation arrives at the point of coherence of a tile, whose place is not fenced (R222). -/
def State.pocArrive (s : State) (tile dom : Nat) (kind : PocKind) (who : Requester) : State :=
  { s with mem := { s.mem with
          ops := s.mem.ops ++ [⟨s.mem.nextOp, tile, dom, false, kind, who⟩], nextOp := s.mem.nextOp + 1 } }

/-- Bytes come in from a host window: free values (host memory is outside the package). -/
def hostBytes (ctr a n : Nat) : Nat := packNat 8 ((List.range n).map fun i => (Config.hostByte ctr (a + i)).toNat)

/-- The PCIe link of a port is up (Table 10.12). -/
def State.pcieUp (s : State) (port : Fin 2) : Bool := s.fld (rHstPcie port) 60 4 == 2

/-- A record made at the package's edge (R225): ENTRY is set, OWNER is the context that named the transfer. -/
def State.entryImg (s : State) (data : TileData) (gen : BitVec 32) (fmt : BitVec 8) (ctx : Nat) : TileImg :=
  ⟨data, freshRec data gen fmt 2 (s.ownerOf ctx) noAnchor⟩

/-- A whole tile is to be written at a physical address. Core-local memory is written at once by its tile-check unit,
which carries the record unchanged (R110); a host window takes the data without the record (R225, R362). -/
def State.tileWrite (s : State) (pa dom : Nat) (img : TileImg) (who : Requester) : State :=
  if s.fencedPlace (placeOf pa) then s.failTo stFenced who
  else match placeOf pa with
  | .coreLocal c off =>
    (({ s with mem := s.mem.localPut (s.physD c) (off / 4096) img }).countRows (placeOf pa) true 64).writeDone who
  | .host port off =>
    if s.pcieUp port then
      ((s.count (144 + 2 * port.val) 4096).emit (.hostWrite port off (bytesOf 32768 img.data 4096))).writeDone who
    else s.failTo stLinkLoss who
  | .hbm _ _ | .reservoir _ | .cluster _ _ => s.pocArrive (pa / 4096) dom (.whole img 0 0) who
  | _ => s.failTo stIsolation who

/-- A write that leaves the scope of its operation: it is visible there once it has crossed the boundary (R241), and is
performed later at its point of coherence. -/
def State.earlyWrite (s : State) (pa dom : Nat) (img : TileImg) (who : Requester) : State :=
  if (placeOf pa).stored && !s.fencedPlace (placeOf pa) then (s.tileWrite pa dom img .posted).writeDone who
  else s.tileWrite pa dom img who

/-- Sets POISON in a stored header, leaving GEN, the rows and their codes (R228, R229). -/
def Mem.poison (m : Mem) (tile : Nat) : Mem := m.setPlainRec tile (summed (withPoison (m.plainRec tile)))

/-- The scrubber has read a tile (R228). -/
def State.scrubbed (s : State) (p : Fin 4) (tile : Nat) (again : Bool) (img : TileImg) : State :=
  match classifyTile img with
  | .good => s
  | .torn => if again then s else s.modPart p fun x => { x with scrubTorn := x.scrubTorn ++ [tile] }
  | .corrupt r =>
    let s := (s.flog p true false r 0 img.tcr (placeOf (tile * 4096)).level tile).bump (rScrubStat p) 32 16
    if s.failedStack (placeOf (tile * 4096)) then s else { s with mem := s.mem.poison tile }

/-- Queues a tile packet of a command at the source router, before the pennant that follows the command's tiles. -/
def State.issueTile (s : State) (ctx : Option (Fin 16)) (dom : Nat) (who : Requester) (pkt : Packet) : State :=
  let first := fun (r : SrcReq) => !(r.who == who && r.pkt.pen && !pkt.pen)
  { s with fab := { s.fab with src := s.fab.src.takeWhile first ++ [⟨ctx, dom, who, pkt, none⟩] ++ s.fab.src.dropWhile first } }

/-- A whole tile has been read. A relay writes it on. -/
def State.readDone (s : State) (dom : Nat) (img : TileImg) : Requester → State
  | .mover core id loc addr => match loc with
    | some a =>
      let c := coreOfIdx core
      let s := { s with mem := s.mem.localPut (s.physD c) (a / 4096) img }
      (s.countLocal c true 64).modFlight core id Flight.oneLess
    | none => s.failTo stIsolation (.mover core id none addr)
  | .packet port p => (s.tookEffect p).respond port (responseTo p ptReadResp stOk 0 (.tile img))
  | .scrub p tile again => s.scrubbed p tile again img
  | .relay t dst early =>
    if early then s.earlyWrite dst dom img t else s.tileWrite dst dom img t
  | .relayOut t p d c =>
    s.issueTile (if h : c < 16 then some ⟨c, h⟩ else none) d t { p with payload := .tile img }
  | _ => s

/-- A whole tile is to be read at a physical address; `ctx` and `fmt` are for a record made on entry. -/
def State.tileRead (s : State) (pa dom ctx : Nat) (fmt : BitVec 8) (who : Requester) : State :=
  if s.fencedPlace (placeOf pa) then s.failTo stFenced who
  else match placeOf pa with
  | .coreLocal c off =>
    (s.countRows (placeOf pa) false 64).readDone dom (s.mem.localTileImg (s.physD c) (off / 4096)) who
  | .host port off =>
    if s.pcieUp port then
      let data := BitVec.ofNat 32768 (hostBytes s.freeCtr off 4096)
      let s := (s.draw).count (145 + 2 * port.val) 4096
      s.readDone dom (s.entryImg data 1 fmt ctx) who
    else s.failTo stLinkLoss who
  | .hbm _ _ | .reservoir _ | .cluster _ _ => s.pocArrive (pa / 4096) dom (.read none) who
  | _ => s.failTo stIsolation who

/-- `n` bytes, within one tile, are to be written at a physical address: a partial write (R219). -/
def State.bytesWrite (s : State) (pa dom n v : Nat) (who : Requester) : State :=
  if s.fencedPlace (placeOf pa) then s.failTo stFenced who
  else match placeOf pa with
  | .coreLocal c off =>
    (({ s with mem := s.mem.localPart (s.physD c) off n v }).countRows (placeOf pa) true
      ((off % 64 + n + 63) / 64)).writeDone who
  | .host port off =>
    if s.pcieUp port then
      let data := (List.range n).map fun i => BitVec.ofNat 8 (v >>> (8 * i))
      ((s.count (144 + 2 * port.val) n).emit (.hostWrite port off data)).writeDone who
    else s.failTo stLinkLoss who
  | .hbm _ _ | .reservoir _ | .cluster _ _ =>
    s.pocArrive (pa / 4096) dom (.part (rowChanges (pa % 4096) n v) 0) who
  | _ => s.failTo stIsolation who

/-- Eight bytes are to be written at a physical address. -/
def State.word8Write (s : State) (pa dom : Nat) (v : Word) (who : Requester) : State := s.bytesWrite pa dom 8 v.toNat who

/-- Eight bytes are to be read at a physical address. -/
def State.word8Read (s : State) (pa dom : Nat) (who : Requester) : State :=
  if s.fencedPlace (placeOf pa) then s.failTo stFenced who
  else match placeOf pa with
  | .coreLocal c off =>
    (s.countRows (placeOf pa) false 1).read8Done (BitVec.ofNat 64 (s.mem.localNum (s.physD c) off 8)) who
  | .host port off =>
    if s.pcieUp port then
      ((s.draw).count (145 + 2 * port.val) 8).read8Done (BitVec.ofNat 64 (hostBytes s.freeCtr off 8)) who
    else s.failTo stLinkLoss who
  | .hbm _ _ | .reservoir _ | .cluster _ _ => s.pocArrive (pa / 4096) dom (.read8 (pa % 4096)) who
  | _ => s.failTo stIsolation who

/-! ## Releases (R162) -/

/-- Every write of core `c` to memory of scope `sc` has been performed. -/
def State.performed (s : State) (c : CoreAddr) (sc : Nat) : Bool :=
  s.mem.ops.all fun o => o.dom != coreIdx c || !inScope sc c (placeOf (o.tile * 4096)) || match o.kind with
    | .read _ => true | .read8 _ => true | _ => false

/-- Packet of an 8-byte access with F = 1 (R164, R284). -/
def Core.packet8 (k : Core) (typ : BitVec 4) (addr data : Word) (gen : BitVec 16) : Packet :=
  { blankPacket with
    typ := typ, tc := tcTensor, dstEp := faEp addr, offset := faOff addr, data8 := data, rgen := gen
    seq := BitVec.ofNat 16 (k.sendCount % 256 * 256) }

/-- The context of a core's traffic. -/
def Core.ctxFin (k : Core) : Fin 16 := ⟨k.ctx % 16, Nat.mod_lt _ (by decide)⟩

/-- Sends the write of the STREL that stands first among a core's operations in flight, once every earlier write of the
core is visible at its scope (R162). A write that leaves the scope is visible there at once (R241). -/
def State.pump (s : State) (c : CoreAddr) : State :=
  let k := s.core c
  match k.flights with
  | x :: _ => match x.kind with
    | .strel addr f sc data false done =>
      if done || !s.performed c sc.toNat then s
      else
        let i := coreIdx c
        let s := s.modFlight i x.id fun x => { x with kind := .strel addr f sc data true done }
        if f then s.issue (some k.ctxFin) i (.strel i x.id) (k.packet8 ptWrite8 addr data (s.gen i))
        else
          let t := s.translate c.p k.ctx addr true
          match t.pa with
          | .error _ => (t.s.deferred c 5 x.bundle xcAddress stConfig addr).modFlight i x.id
              fun x => { x.released with failed := true }
          | .ok pa =>
            let pl := placeOf pa
            if !t.s.admits (.core c) pl then
              ((t.s.xlateErr c.p xReserved k.ctx pa).deferred c 5 x.bundle xcAddress stConfig addr).modFlight i x.id
                fun x => { x.released with failed := true }
            else if pl.stored && !inScope sc.toNat c pl && !t.s.fencedPlace pl then
              (t.s.word8Write pa i data .posted).writeDone (.strel i x.id)
            else t.s.word8Write pa i data (.strel i x.id)
    | _ => s
  | [] => s

/-- As `pump`, for the core that a domain number names. -/
def State.pumpDom (s : State) (dom : Nat) : State := if dom < 384 then s.pump (coreOfIdx dom) else s

/-! ## The order of operations on one tile (R222) -/

def PocOp.isWhole (o : PocOp) : Bool := match o.kind with | .whole _ _ _ => true | _ => false
def PocOp.isPart (o : PocOp) : Bool := match o.kind with | .part _ _ => true | _ => false

/-- A read that has not read its rows. -/
def PocOp.isNewRead (o : PocOp) : Bool := match o.kind with | .read none => true | .read8 _ => true | _ => false

/-- A read that has read its rows and awaits its header. -/
def PocOp.isRowsRead (o : PocOp) : Bool := match o.kind with | .read (some _) => true | _ => false

/-- The operations on a tile, oldest first. -/
def Mem.opsOn (m : Mem) (tile : Nat) : List PocOp := m.ops.filter fun o => o.tile == tile

/-- A whole-tile write is open on the tile. -/
def Mem.wholeOpen (m : Mem) (tile : Nat) : Bool := (m.opsOn tile).any fun o => o.isWhole && o.opened

def Mem.dropOp (m : Mem) (id : Nat) : Mem := { m with ops := m.ops.filter fun o => o.id != id }

def Mem.modOp (m : Mem) (id : Nat) (f : PocOp → PocOp) : Mem := { m with ops := updWhere (fun o => o.id == id) f m.ops }

/-- The whole-tile write that may open: nothing on the tile arrived before it. -/
def Mem.opener (m : Mem) (tile : Nat) : Option PocOp :=
  match m.opsOn tile with
  | o :: _ => if o.isWhole && !o.opened then some o else none
  | [] => none

/-- The operations of a tile that no whole-tile write which arrived before them still has to open or to close. -/
def beforeWhole : List PocOp → List PocOp
  | [] => []
  | o :: r => if o.isWhole then [] else o :: beforeWhole r

/-- The oldest partial write that may open. -/
def Mem.partReady (m : Mem) (tile : Nat) : Option PocOp := (beforeWhole (m.opsOn tile)).find? PocOp.isPart

/-- The operations that no whole-tile write which arrived before them still has to open. -/
def beforeUnopened : List PocOp → List PocOp
  | [] => []
  | o :: r => if o.isWhole && !o.opened then [] else o :: beforeUnopened r

/-- The oldest read that has opened and not read its rows. -/
def Mem.readReady (m : Mem) (tile : Nat) : Option PocOp := (beforeUnopened (m.opsOn tile)).find? PocOp.isNewRead

/-- The oldest read whose header may be read. -/
def Mem.headerReady (m : Mem) (tile : Nat) : Option PocOp :=
  if m.wholeOpen tile then none else (m.opsOn tile).find? PocOp.isRowsRead

/-! ## Rows of open writes -/

/-- Row `r` of an open whole-tile write is stored, its code re-seeded to the write's generation (R220). -/
def Mem.landRow (m : Mem) (tile : Nat) (img : TileImg) (gen : BitVec 32) (r : Nat) : Mem :=
  m.storeRow tile r (tileRow img.data r) (codeAt img.tcr.code r ^^^ seed img.tcr.gen r ^^^ seed gen r)

/-- The rows that the mask adds to those stored. -/
def newRows (landed mask : BitVec 64) : List Nat := (List.range 64).filter fun r => mask.getLsbD r && !landed.getLsbD r

/-- A whole-tile write stores the rows of a mask. -/
def Mem.landWhole (m : Mem) (o : PocOp) (mask : BitVec 64) : Mem :=
  match o.kind with
  | .whole img g landed =>
    ((newRows landed mask).foldl (fun m r => m.landRow o.tile img g r) m).modOp o.id
      fun o => { o with kind := .whole img g (landed ||| mask) }
  | _ => m

/-- A partial write stores those of its rows that the mask names. The header is rewritten last, and the record keeps a
SUM that agrees with its codes in between, as the points of coherence serve it (R219, R222, R245; log entry 20). -/
def Mem.landPart (m : Mem) (o : PocOp) (mask : BitVec 64) : Mem :=
  match o.kind with
  | .part rows landed =>
    let now := rows.filter fun c => mask.getLsbD c.row && !landed.getLsbD c.row
    (if now.isEmpty then m else m.pocPart o.tile now).modOp o.id fun o => { o with kind := .part rows (landed ||| mask) }
  | _ => m

/-- Stores, of every write that is open or may be open on the tile, the rows that a free value names (R220 step 5, R243,
R244). -/
def State.landSome (s : State) (tile : Nat) : State :=
  if s.failedStack (placeOf (tile * 4096)) then s
  else
  let ws := (s.mem.opsOn tile).filter fun o => o.isWhole && o.opened
  let ps := (beforeWhole (s.mem.opsOn tile)).filter PocOp.isPart
  (ws ++ ps).foldl (fun s o =>
    let mask := Config.freeRows s.freeCtr
    { s.draw with mem := if o.isWhole then s.mem.landWhole o mask else s.mem.landPart o mask }) s

/-! ## Commands of this family -/

/-- Opens the whole-tile write that may open (R220 steps 2 and 3). -/
def State.openWhole (s : State) (tile : Nat) : State :=
  match s.mem.opener tile with
  | some o => { s with mem := s.mem.modOp o.id fun o => match o.kind with
      | .whole img _ _ => { o with opened := true, kind := .whole img ((s.mem.recAt tile).gen + 1) 0 }
      | _ => o }
  | none => s

/-- The header that closes a whole-tile write: FMT, ANCHOR and OWNER of the incoming one, the write's generation and a
fresh SUM (R217, R220). -/
def Mem.closeHeader (m : Mem) (tile : Nat) (img : TileImg) (gen : BitVec 32) : Mem :=
  m.setPlainRec tile (summed { vetted img.tcr with code := (m.plainRec tile).code, gen := gen })

/-- Stores the rows that remain and the header of the open whole-tile write, and closes it (R220 steps 4 to 6). -/
def State.closeWhole (s : State) (tile : Nat) : State :=
  match (s.mem.opsOn tile).find? fun o => o.isWhole && o.opened with
  | some o => match o.kind with
    | .whole img g _ =>
      if s.failedStack (placeOf (tile * 4096)) then (({ s with mem := s.mem.dropOp o.id }).writeDone o.who).pumpDom o.dom
      else
      let m := (s.mem.landWhole o (BitVec.allOnes 64)).closeHeader tile img g
      ((({ s with mem := m.dropOp o.id }).countRows (placeOf (tile * 4096)) true 64).writeDone o.who).pumpDom o.dom
    | _ => s
  | none => s

/-- Opens and performs the oldest partial write that may open (R219, R222). -/
def State.doPart (s : State) (tile : Nat) : State :=
  match s.mem.partReady tile with
  | some o => match o.kind with
    | .part rows _ =>
      if s.failedStack (placeOf (tile * 4096)) then (({ s with mem := s.mem.dropOp o.id }).writeDone o.who).pumpDom o.dom
      else
      let m := s.mem.landPart o (BitVec.allOnes 64)
      ((({ s with mem := m.dropOp o.id }).countRows (placeOf (tile * 4096)) true rows.length).writeDone o.who).pumpDom o.dom
    | _ => s
  | none => s

/-- Opens the oldest read that may open and reads its rows; an 8-byte read is then served (R222, R242). -/
def State.readRows (s : State) (tile : Nat) : State :=
  match s.mem.readReady tile with
  | some o =>
    let s := (s.landSome tile).countUncorr (placeOf (tile * 4096))
    match o.kind with
    | .read _ =>
      let got := (s.mem.tileData tile, (s.mem.plainRec tile).code)
      ({ s with mem := s.mem.modOp o.id fun o => { o with opened := true, kind := .read (some got) } }).countRows
        (placeOf (tile * 4096)) false 64
    | .read8 off =>
      let v := BitVec.ofNat 64 (s.mem.num (tile * 4096 + off) 8)
      (({ s with mem := s.mem.dropOp o.id }).countRows (placeOf (tile * 4096)) false 1).read8Done v o.who
    | _ => s
  | none => s

/-- The header that a read is served: a SUM over the codes served and the header fields, POISON where the stored SUM
fails (R245). -/
def Mem.servedHeader (m : Mem) (tile : Nat) (code : BitVec 896) : TileRec :=
  summed { vetted (m.plainRec tile) with code := code }

/-- Reads the header of the oldest read that may, and serves the tile (R222, R224, R245). -/
def State.readHeader (s : State) (tile : Nat) : State :=
  match s.mem.headerReady tile with
  | some o => match o.kind with
    | .read (some (data, code)) =>
      let h := s.mem.servedHeader tile code
      let img : TileImg := ⟨data, if s.failedStack (placeOf (tile * 4096)) then summed (withPoison h) else h⟩
      ({ s with mem := s.mem.dropOp o.id }).readDone o.dom img o.who
    | _ => s
  | none => s

/-- TILE_WRITE_OPEN. -/
def execTileWriteOpen (tile : BitVec 36) (s : State) : Answer := .next (s.openWhole tile.toNat)

/-- TILE_READ. -/
def execTileRead (tile : BitVec 36) (s : State) : Answer := .next (s.readRows tile.toNat)

/-- TILE_READ_HEADER. -/
def execTileReadHeader (tile : BitVec 36) (s : State) : Answer := .next (s.readHeader tile.toNat)

end Sys2Proof.Machine
end

