-- ==== Sys2Proof/Machine/Spans.lean ====
section
/-! DEFINITION. Spans and their barriers (Spans, static schedules and the Smient flow, R174 to R184, R186, R191). Barrier 0
of a group is its launch barrier, barrier n the one that ends span n - 1 and enters span n. -/

namespace Sys2Proof.Machine

/-! ## The schedule of a group -/

/-- S of barrier `n` (R175, R178): T0 for the launch barrier, the start of span n, or the end of the last span. -/
def Group.start (g : Group) (n : Nat) : Nat :=
  if n = 0 then g.t0
  else match g.spans[n]? with
    | some e => g.t0 + e.off
    | none => match g.spans.getLast? with
      | some e => g.t0 + e.off + e.budget
      | none => g.t0

/-- LIMIT of R183 for barrier `n`. -/
def Group.limit (g : Group) (n : Nat) : Nat :=
  if n = 0 then g.limitCore else max g.limitCore (4 * (g.spans.getD (n - 1) ⟨0, 0, 0⟩).budget)

/-- The barrier that an arrival is for. -/
def arrivalBarrier (a : Arrival) : Nat := if a.launch then 0 else a.span + 1

/-- A member of the group, by image package index and core. -/
def Group.member (g : Group) (pkg : Nat) (c : CoreAddr) : Bool := g.members.any fun m => m.1 == pkg && m.2 == c

/-- The arrivals held for barrier `n`. -/
def Group.arrived (g : Group) (n : Nat) : List Arrival :=
  g.held.filterMap fun h => if h.1 = n then some h.2.1 else none

/-- Every member's arrival for barrier `n` is held. -/
def Group.complete (g : Group) (n : Nat) : Bool :=
  g.members.all fun m => (g.arrived n).any fun a => a.pkg.toNat == m.1 && a.core == m.2

/-- The largest arrival stamp. -/
def maxStamp (l : List Arrival) : Nat := l.foldl (fun m a => max m a.stamp.toNat) 0

/-- Of two arrivals, the overrunning one: the larger stamp, then the lower package, then the lower core (R177). -/
def laterArrival (a b : Arrival) : Bool :=
  decide (b.stamp.toNat < a.stamp.toNat) || (a.stamp == b.stamp &&
    (decide (a.pkg.toNat < b.pkg.toNat) || (a.pkg == b.pkg && decide ((packCore a.core).toNat < (packCore b.core).toNat))))

/-- The overrunning arrival. -/
def overrunner (l : List Arrival) : Option Arrival :=
  l.foldl (fun m a => match m with | none => some a | some b => if laterArrival a b then some a else some b) none

/-- The cause of an overrun (R181), as CAUSE of Table 5.10. -/
def overrunCause (n : Nat) (a : Arrival) : Nat :=
  if n = 0 then 4 else if a.replayed then 3 else if a.throttled then 2 else 1

/-- D after the update of R176 with the stamps held for barrier `n`. -/
def State.slipAfter (s : State) (slot n : Nat) : Nat :=
  let g := s.group slot
  max (s.fld (rSgSlip slot) 0 48) (maxStamp (g.arrived n) + s.fld (rSgCfg slot) 0 32 - g.start n)

/-- Records an overrun of barrier `n` by `slip` ticks (R177, R181, R182, R201). -/
def State.overrun (s : State) (slot n slip : Nat) : State :=
  let g := s.group slot
  let s := s.bump (rSgStat slot) 32 16
  let seq := s.fld (rSgStat slot) 32 16
  let who := match overrunner (g.arrived n) with
    | some a => setField (setField (setField 0 45 3 (overrunCause n a)) 36 9 (packCore a.core).toNat) 23 13 a.pkg.toNat
    | none => 0
  let what := setField (setField 0 32 16 (if n = 0 then 0xFFFF else n - 1)) 0 32 (Nat.min slip 0xFFFFFFFF)
  let s := (s.setReg (rSgWho slot) (setField who 48 16 seq)).setReg (rSgWhat slot) (setField what 48 16 seq)
  s.modLaunch g.ring g.idx fun l => { l with overran := true }

/-- Arrivals for barrier `n` received after S + D (R177, Table 5.8). -/
def Group.lateArrivals (g : Group) (n d : Nat) : Nat := (g.held.filter fun h => h.1 == n && decide (g.start n + d < h.2.2)).length

/-- The last arrival of the barrier awaited is held: D takes its new value (R176). -/
def State.closeBarrier (s : State) (slot n : Nat) : State :=
  let d := s.slipAfter slot n
  let late := (s.group slot).lateArrivals n d
  let s := s.setFld (rSgStat slot) 24 8 (Nat.min (s.fld (rSgStat slot) 24 8 + late) 0xFF)
  let slip := d - s.fld (rSgSlip slot) 0 48
  let s := s.modGroup slot fun g => { g with full := n + 1 }
  let s := s.setFld (rSgSlip slot) 0 48 d
  if slip = 0 then s else s.overrun slot n slip

/-- Receives an arrival (R174 to R177). One that is no member's, or is held already, changes nothing. -/
def State.holdArrival (s : State) (slot : Nat) (a : Arrival) : State :=
  let g := s.group slot
  let n := arrivalBarrier a
  if !g.member a.pkg.toNat a.core || (g.arrived n).any (fun b => b.pkg == a.pkg && b.core == a.core) then s
  else
    let s := s.modGroup slot fun g => { g with held := g.held ++ [(n, a, s.ftc.toNat)] }
    if (s.group slot).complete n && n == g.full then s.closeBarrier slot n else s

/-! ## A core at a barrier -/

/-- The barrier at which a core in BARRIER waits. -/
def Core.barrierNo (k : Core) : Nat := if k.atLaunch then 0 else k.spanIdx + 1

/-- The span-entry record that the core writes at a barrier (R84, R165, R186). -/
def Core.entryRecord (k : Core) (next : BitVec 16) (stamp : Word) : SpanRec :=
  { span := BitVec.ofNat 32 (k.spanIdx + 1), next := next, stamp := stamp, s := k.s, p := k.p, q := k.q, valid := true }

/-- Writes a record into the slot that does not hold the newest valid one, and clears ledger and tally (R186, R191). -/
def CoreStore.push (x : CoreStore) (r : SpanRec) : CoreStore :=
  let keep0 := match x.rec0.valid, x.rec1.valid with
    | true, true => decide (x.rec1.span.toNat ≤ x.rec0.span.toNat)
    | true, false => true
    | _, _ => false
  if keep0 then { x with rec1 := r, ledger := 0, tally := [] } else { x with rec0 := r, ledger := 0, tally := [] }

/-- The image package index of this package in the group of a core. -/
def State.sendArrival (s : State) (c : CoreAddr) (launch : Bool) : State :=
  let k := s.core c
  let g := s.group k.group
  let a : Arrival := ⟨BitVec.ofNat 13 g.me, c, k.spanIdx, launch, s.ftc, k.replaying, k.throttled || k.limited⟩
  let s := { s with barNet := s.barNet ++ [a] }
  if g.members.any fun m => m.1 != g.me then s.emit (.arrival a) else s

/-- The group of a core shows "replaying" until no local member of it awaits or runs a replay (Table 5.8). -/
def State.replayEnds (s : State) (slot : Nat) : State :=
  let g := s.group slot
  let open' := g.members.any fun m => m.1 == g.me && ((s.core m.2).failFence || (s.core m.2).replaying)
  if s.fld (rSgStat slot) 60 4 = 2 ∧ open' = false then s.setFld (rSgStat slot) 60 4 1 else s

/-- SPAN.BAR issues (R165): the core writes the record of the next span, enters BARRIER and arrives. -/
def State.enterBarrier (s : State) (c : CoreAddr) (next : BitVec 16) (stop : Bool) : State :=
  let k := s.core c
  let s := s.modStore c fun x => x.push (k.entryRecord next s.ftc)
  let s := s.modCore c fun k => { k with st := .barrier, next := next, stop := stop, waitBeats := 0 }
  let s := s.sendArrival c false
  (s.modCore c fun k => { k with replaying := false }).replayEnds k.group

/-- The barrier that a core waits at may be released: every arrival is held and the FTC reads S + D (R175). -/
def State.mayRelease (s : State) (c : CoreAddr) : Bool :=
  let k := s.core c
  let g := s.group k.group
  k.st == .barrier && s.rbit (rSgCfg k.group) 63 && k.launch == some (g.ring, g.idx) &&
    decide (k.barrierNo < g.full) && decide (g.start k.barrierNo + s.fld (rSgSlip k.group) 0 48 ≤ s.ftc.toNat)

/-- Releases the barrier (R135, R136, R175, R178): span 0 is entered from the launch barrier, the next span from any
other; after the last span the core is STOPPED. -/
def State.release (s : State) (c : CoreAddr) : State :=
  let k := s.core c
  if k.atLaunch then
    s.setCore c { k.enterSpan with st := .run, atLaunch := false, pc := k.next, spanIdx := 0, span := 0 }
  else if k.stop then
    (s.setCore c { k with st := .stopped, measOk := false, fill := false }).settle
  else
    let s := s.setCore c { k.enterSpan with st := .run, pc := k.next, spanIdx := k.spanIdx + 1, span := k.span + 1 }
    s.modReg (rSgStat k.group) fun x => setField x 0 24 (max (fieldN x 0 24) ((k.spanIdx + 1) % 0x1000000))

/-! ## Commands of this family -/

/-- The arrival of a local member is on the barrier network; one from another package comes by the fabric. -/
def State.arrivalComes (s : State) (slot : Nat) (a : Arrival) : Bool :=
  s.rbit (rSgCfg slot) 63 && (a.pkg.toNat != (s.group slot).me || s.barNet.contains a)

/-- BARRIER_ARRIVAL. -/
def execBarrierArrival (g : Fin 64) (a : Arrival) (s : State) : Answer :=
  .next (if s.arrivalComes g.val a then
    ({ s with barNet := s.barNet.filter fun b => b != a }).holdArrival g.val a else s)

/-- BARRIER_RELEASE. -/
def execBarrierRelease (c : CoreAddr) (s : State) : Answer :=
  .next (if s.mayRelease c then s.release c else s)

/-- The wait limit of a member in RUN has passed (R183); it acts once per core per span. -/
def State.overLimit (s : State) (c : CoreAddr) : Bool :=
  let k := s.core c
  let g := s.group k.group
  let n := k.spanIdx + 1
  k.st == .run && !k.limitUsed && s.rbit (rSgCfg k.group) 63 && k.launch == some (g.ring, g.idx) &&
    decide (g.start n + s.fld (rSgSlip k.group) 0 48 + g.limit n ≤ s.ftc.toNat)

/-- CORE_WAIT_LIMIT. -/
def execCoreWaitLimit (c : CoreAddr) (s : State) : Answer :=
  .next (if s.overLimit c then (s.modCore c fun k => { k with limitUsed := true }).failCore c else s)

/-- The doubled limit has passed while an arrival is missing (R184). -/
def State.overPackageLimit (s : State) (slot : Nat) : Bool :=
  let g := s.group slot
  s.rbit (rSgCfg slot) 63 && decide (g.full ≤ g.spans.length) &&
    decide (g.start g.full + s.fld (rSgSlip slot) 0 48 + 2 * g.limit g.full + 10000000 ≤ s.ftc.toNat)

/-- Fences every local core of a group for stop; its LAUNCH ends with `st` (R184, KT.SGFEN). -/
def State.fenceGroup (s : State) (slot : Nat) (st : BitVec 8) : State :=
  let g := s.group slot
  let s := s.modLaunch g.ring g.idx fun l => { l with status := some (l.status.getD st) }
  let s := s.setFld (rSgStat slot) 60 4 3
  ((g.members.filterMap fun m => if m.1 = g.me then some m.2 else none).foldl State.fenceCore s).settle

/-- PACKAGE_WAIT_LIMIT. -/
def execPackageWaitLimit (g : Fin 64) (s : State) : Answer :=
  .next (if s.overPackageLimit g.val then s.fenceGroup g.val stTimeout else s)

end Sys2Proof.Machine
end

