-- ==== Sys2Proof/Machine/Streams.lean ====
section
/-! DEFINITION. The source router: what a package sends, its pennant streams, and what the answers do (Tensor Fabric, R272,
R274, R278, R279, R283 to R294, R297 to R302; Reset, R452). -/

namespace Sys2Proof.Machine

/-! ## Counters (Tables 8.14, 8.20) -/

/-- The die a number names. -/
def dieOf (n : Nat) : Fin 2 := ⟨n % 2, Nat.mod_lt _ (by decide)⟩

/-- HCRC_DROP, ISO_SRC, ISO_ING and DETOUR_FAIL of FAB_ERR: the low bit of each. -/
def feHcrc : Nat := 48
def feIsoSrc : Nat := 32
def feIsoIng : Nat := 16
def feDetour : Nat := 0

def State.fabErr (s : State) (die lo : Nat) : State := s.bump (rFabErr (dieOf die)) lo 16

/-- The in-flight count of a bank (R299). -/
def State.inflight (s : State) (bank : Bool) : Nat :=
  (s.fld (rBankCnt bank) 32 32 + 0x100000000 - s.fld (rBankCnt bank) 0 32) % 0x100000000

/-! ## Addressing (R274, R278, R283) -/

/-- The ID, in a bank, of the source endpoint of a context's packets, or of the management pair's (R278). -/
def State.srcId (s : State) (ctx : Option (Fin 16)) (bank : Bool) : Option (BitVec 19) :=
  match ctx with
  | none => s.lepId bank 0
  | some c => match s.srcLep c.val with
    | none => none
    | some n => s.lepId bank n

/-- The source local endpoint, as a number that tells pairs apart. -/
def State.srcNo (s : State) (ctx : Option (Fin 16)) : Nat :=
  match ctx with
  | none => 64
  | some c => (s.srcLep c.val).getD 65

/-- The packet with its source, bank, coordinates and routing mode (R274). -/
def State.addressed (s : State) (ctx : Option (Fin 16)) (bank : Bool) (src : BitVec 19) (entry : Word) (p : Packet) :
    Packet :=
  let dst := eCoord entry
  let p := { p with bank := bank, srcEp := src, dstCoord := dst, dhint := eDhint entry, dl := false, det := false }
  let minimal := { p with ph := true, min := true, midCoord := dst }
  match ctx with
  | some c =>
    if p.tc ≠ tcTensor ∨ p.mc = true ∨ oneStep s.extents s.coord (coordOf dst) = true then minimal
    else { p with ph := false, min := false, midCoord := packCoord (s.midCoord c.val src p.dstEp p.seq) }
  | none => minimal

/-! ## Ways out of a router -/

/-- The replicas of a packet at a router: the one for this package, those that leave, and those that are lost. -/
structure Ways where
  here : Option Packet
  outs : List (Nat × Packet)
  lost : List Packet
deriving DecidableEq, Repr

/-- Members that a packet or replica stands for. -/
def State.memberCount (s : State) (p : Packet) : Nat :=
  if p.mc then (mcastMembers s.extents (coordOf p.dstCoord) (p.coll.getLsbD 0) p.mask).length else 1

/-- The ways of a packet (R285, R286, R297, R306). -/
def State.ways (s : State) (home : Nat) (axis : Option Nat) (p : Packet) : Ways :=
  if p.mc then
    let (me, reps) := mcastSplit s.extents s.coord p
    let exits := reps.map fun r => (s.leave home axis r.1 r.2, r.2)
    { here := if me then some p else none
      outs := exits.filterMap Prod.fst
      lost := exits.filterMap fun e => if e.1.isNone then some e.2 else none }
  else match s.hop home axis p with
    | .here p => ⟨some p, [], []⟩
    | .out n p => ⟨none, [(n, p)], []⟩
    | .lost => ⟨none, [], [p]⟩

/-- A packet that has come to its package can go on: one to a service endpoint needs its port up and able to take it (R269, R282). -/
def State.exitOpen (s : State) (home : Nat) (p : Packet) : Bool :=
  let e := s.ept home p.bank p.dstEp.toNat
  !eSvc e || (s.portUp (servicePort (eSport e)) && s.portTakes (servicePort (eSport e)) p)

/-- Every port a packet leaves by can take it (R269). -/
def State.waysOpen (s : State) (home : Nat) (w : Ways) : Bool :=
  (w.outs.all fun o => s.portTakes o.1 o.2) && match w.here with
    | some p => s.exitOpen home p
    | none => true

def State.sendWays (s : State) (w : Ways) : State := w.outs.foldl (fun s o => s.sendOn o.1 o.2) s

/-! ## Sending a request -/

/-- Sends an addressed request on its ways. It is unanswered by each of its members until their responses come; members
that no way reaches are answered LINK_LOSS at once (R297, R299, R306). -/
def State.sendRequest (s : State) (home dom : Nat) (who : Requester) (p : Packet) (w : Ways) : State :=
  let p := { p with tag := s.fab.nextTag }
  let tagged := fun (q : Packet) => sealed { q with tag := p.tag }
  let w : Ways := ⟨w.here.map tagged, w.outs.map fun o => (o.1, tagged o.2), w.lost⟩
  let lost := (w.lost.map s.memberCount).foldl (· + ·) 0
  let left := s.memberCount p - lost
  let s := s.sendWays w
  let s := match w.here with
    | some q => s.deliver home q
    | none => s
  let s := (w.lost.foldl (fun s _ => s.fabErr home feDetour) s).addOrig p.bank left
  let o : OutReq := ⟨p.tag, p.bank, dom, who, p, left, if w.lost.isEmpty then 0 else stLinkLoss, false⟩
  if left = 0 then s.failTo stLinkLoss who
  else { s with fab := { s.fab with nextTag := s.fab.nextTag + 1, out := s.fab.out ++ [o] } }

/-- An OPEN or CLOSE of a stream; they are requests of the package (DESIGN CHOICE, log entry 27). -/
def State.streamPacket (s : State) (e : Stream) (typ : BitVec 4) : Packet :=
  s.addressed e.ctx e.bank e.src (s.ept (epDie e.dst) e.bank e.dst.toNat)
    { blankPacket with typ := typ, tc := e.tc, dstEp := e.dst, stream := e.tag, rgen := s.gen domPackage }

/-- Sends the CLOSE of a stream (R294, R302). -/
def State.sendClose (s : State) (e : Stream) : State :=
  let p := s.streamPacket e ptClose
  s.sendRequest (epDie e.dst) domPackage .posted p (s.ways (epDie e.dst) none p)

/-- Takes a stream out of the table; a tracked one sends its CLOSE. -/
def State.endStream (s : State) (die : Nat) (e : Stream) : State :=
  let h := s.half die
  let s := s.setHalf die { h with streams := h.streams.filter fun x => x.tag != e.tag }
  if e.tracked = some true then s.sendClose e else s

def State.modStream (s : State) (die : Nat) (tag : BitVec 16) (f : Stream → Stream) : State :=
  let h := s.half die
  s.setHalf die { h with streams := updWhere (fun e => e.tag == tag) f h.streams }

/-- The open stream of a pair. -/
def Half.streamOf (h : Half) (src dst : BitVec 19) (bank : Bool) : Option Stream :=
  h.streams.find? fun e => e.src == src && e.dst == dst && e.bank == bank && !e.ended

/-! ## Pennants at the source (R289, R290, R293) -/

/-- Largest count of an epoch (R293). -/
def epochMax : Nat := 0xFFFFFF

/-- The unanswered packets of the pair that left before this one, those abandoned at CUT not counted; for a pennant that is resent, before it was first sent. -/
def State.earlier (s : State) (r : SrcReq) : List OutReq :=
  s.fab.out.filter fun o =>
    o.pkt.dstEp == r.pkt.dstEp && s.srcId r.ctx o.pkt.bank == some o.pkt.srcEp && o.pkt.typ != ptOpen &&
      o.pkt.typ != ptClose && !o.gone && (!r.pkt.rty || (o.tag != r.pkt.tag && decide ((r.pkt.tag - o.tag).toNat < 0x80000000)))

/-- What keeps a packet of a stream at its source. -/
inductive Hold where
  | go
  | wait
  /-- the epoch is full and everything is answered: the stream is closed and a new one opened (R293) -/
  | renew
deriving DecidableEq, Repr

def State.streamHold (s : State) (r : SrcReq) (e : Stream) : Hold :=
  let p := r.pkt
  let trk := e.tracked = some true
  let old := s.earlier r
  if trk ∧ p.rty = false ∧ 2 ≤ e.pennants ∧ e.penOut.contains (e.pennants - 2) = true then .wait
  else if p.pen then
    let covered := fun (o : OutReq) => trk && !p.rty && o.pkt.trk && o.pkt.stream == e.tag && o.pkt.bank == e.bank
    if old.any fun o => !covered o then .wait
    else if !p.rty && decide (512 ≤ (s.half (epDie p.dstEp)).retained.length) then .wait
    else .go
  else if trk ∧ epochMax ≤ e.inEpoch then (if e.unanswered = 0 then .renew else .wait)
  else .go

/-- The packet with the pennant fields of its stream (R289, R292). -/
def Stream.dress (e : Stream) (p : Packet) : Packet :=
  let trk : Bool := e.tracked = some true
  if p.rty then { p with stream := e.tag, trk := false, pcount := 0 }
  else
    { p with
      stream := e.tag, trk := trk, epoch := if trk then BitVec.ofNat 8 e.pennants else 0
      pcount := if trk ∧ p.pen = true then BitVec.ofNat 24 e.inEpoch else 0 }

/-- The stream after it has sent a packet. -/
def Stream.sent (e : Stream) (p : Packet) (now : Nat) : Stream :=
  if p.rty then { e with lastSent := now }
  else
    let e := { e with lastSent := now, unanswered := e.unanswered + 1 }
    if !p.trk then e
    else if p.pen then { e with penOut := e.penOut ++ [e.pennants], pennants := e.pennants + 1, inEpoch := 0 }
    else { e with inEpoch := e.inEpoch + 1 }

/-- Keeps a copy of a pennant until it is answered; a resent one takes the place of its copy (R292). -/
def State.retain (s : State) (die : Nat) (p : Packet) (tag : BitVec 32) : State :=
  if p.pen then
    let h := s.half die
    s.setHalf die { h with
      retained := (h.retained.filter fun q => !(p.rty && q.tag == p.tag)) ++ [{ p with tag := tag }] }
  else s

/-! ## Answers and streams (R290, R293, R294, R302) -/

/-- The stream of a request that has been answered or abandoned; `opened` is the answer to an OPEN. -/
def State.streamAnswered (s : State) (bank : Bool) (p : Packet) (opened : Bool) : State :=
  let die := epDie p.dstEp
  if p.mc ∨ p.typ = ptClose then s
  else
    let h := s.half die
    let s := s.setHalf die { h with retained := h.retained.filter fun q => !(p.pen && q.tag == p.tag) }
    let isIt := fun (e : Stream) => e.tag == p.stream && e.src == p.srcEp && e.dst == p.dstEp && e.bank == bank
    match (s.half die).streams.find? isIt with
    | none => s
    | some e =>
      let e := { e with unanswered := e.unanswered - 1 }
      let e :=
        if p.typ = ptOpen then { e with tracked := some opened }
        else if p.pen && (p.trk || p.rty) then { e with penOut := e.penOut.filter fun x => x % 256 != p.epoch.toNat }
        else e
      let s := s.modStream die e.tag fun _ => e
      if e.ended ∧ e.unanswered = 0 then s.endStream die e else s

/-! ## SOURCE_SEND -/

def State.dropSrc (s : State) (n : Nat) : State := { s with fab := { s.fab with src := s.fab.src.eraseIdx n } }

/-- Refuses a request at source. -/
def State.refuseSrc (s : State) (n : Nat) (r : SrcReq) (st : BitVec 8) : State :=
  let s := s.dropSrc n
  let s := if st = stStale then s.bump (rRstGen (domOwner r.dom)) 16 16 else s
  let s := if r.pkt.rty then s.streamAnswered r.pkt.bank r.pkt false else s
  s.failTo st r.who

/-- Sends packet `p` of request `n` on stream `e`, if its ports take it. -/
def State.sendInStream (s : State) (n home : Nat) (r : SrcReq) (e : Stream) (p : Packet) : State :=
  let die := epDie e.dst
  match s.streamHold r e with
  | .wait => s
  | .renew => s.endStream die e
  | .go =>
    let p := e.dress p
    let w := s.ways home none p
    if !s.waysOpen home w then s
    else
      let tag := s.fab.nextTag
      if w.lost.isEmpty then
        let s := (s.dropSrc n).modStream die e.tag fun e => e.sent p s.now
        (s.retain die p tag).sendRequest home r.dom r.who p w
      else (s.fabErr home feDetour).refuseSrc n r stLinkLoss

/-- Creates the stream of a pair and sends its OPEN (R287); none while the table is full or the OPEN cannot leave. -/
def State.openFor (s : State) (r : SrcReq) (bank : Bool) (src : BitVec 19) : Option (State × Stream) :=
  let die := epDie r.pkt.dstEp
  let h := s.half die
  if 4096 ≤ h.streams.length then none
  else
    let e : Stream :=
      { src := src, dst := r.pkt.dstEp, tag := h.nextStream, bank := bank, tc := r.pkt.tc, ctx := r.ctx, tracked := none
        pennants := 0, inEpoch := 0, unanswered := 1, penOut := [], lastSent := s.now, ended := false }
    let p := s.streamPacket e ptOpen
    let w := s.ways die none p
    if !s.waysOpen die w then none
    else
      let s := s.setHalf die { h with streams := h.streams ++ [e], nextStream := h.nextStream + 1 }
      some (s.sendRequest die domPackage .posted p w, e)

/-- A tile that the request's command is to send has not been read. -/
def State.unread (s : State) (r : SrcReq) : Bool :=
  s.mem.ops.any fun o => match o.who with | .relayOut t _ _ _ => t == r.who | _ => false

/-- An earlier request of the same pair still waits: packets of a pair leave in order of issue (R290). The pennant of a MOVE waits
for its other tiles. -/
def State.behind (s : State) (n : Nat) (r : SrcReq) : Bool :=
  ((s.fab.src.take n).any fun q => s.srcNo q.ctx == s.srcNo r.ctx && q.pkt.dstEp == r.pkt.dstEp) || (r.pkt.pen && s.unread r)

/-- A context whose registers differ across the halves sends nothing (R476). -/
def State.ctxBarred (s : State) (ctx : Option (Fin 16)) : Bool :=
  match ctx with
  | some c => s.fab.ctxDiff.contains c
  | none => false

/-- Sends the `n`th waiting request, opening its stream first where it has none; it waits where its order, its stream or
credits do not let it go (R278, R279, R287 to R293, R452). A multicast packet belongs to no stream (log entry 25). -/
def State.sourceSend (s : State) (n : Nat) : State :=
  match s.fab.src[n]? with
  | none => s
  | some r =>
    let bank := s.bank
    let die := epDie r.pkt.dstEp
    let home := match r.die with | some d => d.val | none => die
    if s.behind n r then s
    else if s.gen r.dom ≠ r.pkt.rgen then s.refuseSrc n r stStale
    else if s.ctxBarred r.ctx then s.refuseSrc n r stIsolation
    else match s.srcId r.ctx bank with
    | none => s.refuseSrc n r stIsolation
    | some src =>
      let entry := s.ept die bank r.pkt.dstEp.toNat
      if !entriesOk (s.ept die bank src.toNat) entry r.pkt.tc then (s.fabErr home feIsoSrc).refuseSrc n r stIsolation
      else
        let p := s.addressed r.ctx bank src entry r.pkt
        if p.mc then
          let w := s.ways home none p
          if (p.pen && !(s.earlier r).isEmpty) || !s.waysOpen home w then s
          else (s.dropSrc n).sendRequest home r.dom r.who p w
        else match (s.half die).streamOf src p.dstEp bank with
          | some e => s.sendInStream n home r e p
          | none => match s.openFor r bank src with
            | some (s, e) => s.sendInStream n home r e p
            | none => s

/-! ## Answers -/

/-- The request that a response answers (R272, R298). -/
def State.requestOf (s : State) (p : Packet) : Option OutReq :=
  s.fab.out.find? fun o => o.tag == p.tag && o.bank == p.bank

def State.dropOut (s : State) (tag : BitVec 32) : State :=
  { s with fab := { s.fab with out := s.fab.out.filter fun o => o.tag != tag } }

/-- An answer for another generation is dropped and counted (R452). A request that was abandoned is forgotten with its last
answer. -/
def State.lateAnswer (s : State) (o : OutReq) : State :=
  let s := s.bump (rRstGen (domOwner o.dom)) 32 16
  if !o.gone then s
  else if o.left ≤ 1 then s.dropOut o.tag
  else { s with fab := { s.fab with out := updWhere (fun x => x.tag == o.tag) (fun x => { x with left := x.left - 1 }) s.fab.out } }

/-- A pennant answered with the retry flag is resent: with TRK = 0, RTY = 1 and its EPOCH, or as a new one where its
stream has ended (R292; log entry 28). -/
def State.retryPennant (s : State) (o : OutReq) (ctx : Option (Fin 16)) : State :=
  let s := (s.dropOut o.tag).addTerm o.bank 1
  let live := (s.half (epDie o.pkt.dstEp)).streams.any fun e => e.tag == o.pkt.stream && e.dst == o.pkt.dstEp && !e.ended
  let s := if live then s else s.streamAnswered o.bank o.pkt false
  let p := { o.pkt with rty := live, trk := false, rgen := s.gen o.dom }
  { s with fab := { s.fab with src := ⟨ctx, o.dom, o.who, p, none⟩ :: s.fab.src } }

/-- The context whose traffic a stream of a packet carries. -/
def State.streamCtx (s : State) (p : Packet) : Option (Fin 16) :=
  match (s.half (epDie p.dstEp)).streams.find? fun e => e.tag == p.stream && e.dst == p.dstEp with
  | some e => e.ctx
  | none => none

/-- One member has answered: the request closes when all have (R272, R297, R299). `f` reports its success. -/
def State.memberAnswered (s : State) (o : OutReq) (p : Packet) (st : BitVec 8) (f : State → Requester → State) : State :=
  let s := s.addTerm o.bank 1
  let st := if o.status = 0 then st else o.status
  if 1 < o.left then
    let upd := fun (x : OutReq) => { x with left := x.left - 1, status := st }
    { s with fab := { s.fab with out := updWhere (fun x => x.tag == o.tag) upd s.fab.out } }
  else
    let s := (s.dropOut o.tag).streamAnswered o.bank o.pkt (st == 0 && bit p.data8 0)
    if st = 0 then f s o.who else s.failTo st o.who

/-- A response comes to its requester, if it is a response that the request may get. -/
def State.response (s : State) (port : Nat) (p : Packet) (fits : Packet → Bool) (st : BitVec 8)
    (f : State → OutReq → Requester → State) : State :=
  if !headerOk p then s.fabErr (port / 18) feHcrc
  else match s.requestOf p with
    | none => s
    | some o =>
      if o.gone = true ∨ p.rgen ≠ o.pkt.rgen then s.lateAnswer o
      else if !fits o.pkt then s
      else s.memberAnswered o p st fun s w => f s o w

/-- Requests that are answered by an ACK. -/
def ackFits (p : Packet) : Bool :=
  p.typ == ptWriteTile || p.typ == ptWrite8 || p.typ == ptNotify || p.typ == ptOpen || p.typ == ptClose || p.typ == ptColl

/-- An ACK comes. -/
def State.ackComes (s : State) (port : Nat) (p : Packet) : State :=
  s.response port p ackFits 0 fun s o w => (s.writeDone w).pumpDom o.dom

/-- READ_RESP. -/
def execReadResp (port : Fin 36) (pkt : Packet) (s : State) : Answer :=
  .next (match pkt.payload with
    | .tile img => s.response port.val pkt (fun q => q.typ == ptReadTile) 0 fun s o w => s.readDone o.dom img w
    | _ => s)

/-- RESP8. -/
def execResp8 (port : Fin 36) (pkt : Packet) (s : State) : Answer :=
  .next (s.response port.val pkt (fun q => q.typ == ptRead8 || q.typ == ptMgmt) 0 fun s _ w => s.read8Done pkt.data8 w)

/-- The answer asks for the pennant again (R292). -/
def retryFlag (p : Packet) : Bool := p.status == stFenced && bit p.data8 0

/-- A NACK comes: it ends the request with its status, or has its pennant sent again. -/
def State.nackComes (s : State) (port : Nat) (p : Packet) : State :=
  let plain := s.response port p (fun _ => true) p.status fun s _ w => s.failTo p.status w
  match s.requestOf p with
  | some o =>
    if headerOk p && !o.gone && p.rgen == o.pkt.rgen && retryFlag p && o.pkt.pen && !o.pkt.mc then
      s.retryPennant o (s.streamCtx o.pkt)
    else plain
  | none => plain

/-! ## Idle streams (R294) -/

/-- STREAM_IDLE_CLOSE: the `n`th entry of a die's table has been idle for 10 µs with everything answered. -/
def execStreamIdleClose (die : Fin 2) (n : Nat) (s : State) : Answer :=
  .next (match (s.half die.val).streams[n]? with
    | some e =>
      if e.unanswered = 0 ∧ e.lastSent + 10000 ≤ s.now ∧ e.tracked ≠ none then s.endStream die.val e else s
    | none => s)

end Sys2Proof.Machine
end

