-- ==== Sys2Proof/Machine/Ingress.lean ====
section
/-! DEFINITION. The destination router: the checks at ingress, windows, trackers and held pennants, remote notifications,
and forwarding (Package organization, R32 to R37; Fenyo instruction set, R159; Tensor Fabric, R273, R280, R282, R285, R288
to R292, R297, R299, R300, R306; Reset, R452, R455). -/

namespace Sys2Proof.Machine

/-! ## Windows (Tables 1.7, 1.8) -/

def State.winValid (s : State) (n : Nat) : Bool := s.rbit (rEpwBase n) 63
def State.winBase (s : State) (n : Nat) : Nat := s.fld (rEpwBase n) 21 27 * 0x200000
def State.winSize (s : State) (n : Nat) : Nat := s.fld (rEpwAttr n) 0 20 * 0x200000
def State.winCtx (s : State) (n : Nat) : Nat := s.fld (rEpwAttr n) 60 4
def State.winWr (s : State) (n : Nat) : Bool := s.rbit (rEpwAttr n) 55
def State.winRd (s : State) (n : Nat) : Bool := s.rbit (rEpwAttr n) 54

/-- Bytes and direction of a request's access to its window; none for a request that makes no access. -/
def accessOf (p : Packet) : Option (Nat × Bool) :=
  if p.typ = ptWriteTile then some (4096, true)
  else if p.typ = ptReadTile then some (4096, false)
  else if p.typ = ptWrite8 then some (8, true)
  else if p.typ = ptRead8 then some (8, false)
  else none

/-- The window checks of R37. -/
def State.winAllows (s : State) (n : Nat) (p : Packet) : Bool :=
  match accessOf p with
  | some (len, write) =>
    decide (p.offset.toNat + len ≤ s.winSize n) && decide (p.offset.toNat % len = 0) &&
      (if write then s.winWr n else s.winRd n)
  | none => true

/-- The physical address of a request's access. -/
def State.winAddr (s : State) (n : Nat) (p : Packet) : Nat := s.winBase n + p.offset.toNat

/-! ## Checks at ingress (R280) -/

/-- The local endpoint that a request addresses: of a multicast packet, the member's own of the base endpoint's number
(R295). -/
def State.lepOf (s : State) (die : Nat) (p : Packet) : Nat := eLep (s.ept die p.bank p.dstEp.toNat)

/-- The entry against which ingress checks a request: of a multicast packet, the member's own, which must have MCT (R297). -/
def State.ingressEntry (s : State) (die : Nat) (p : Packet) : Word :=
  if p.mc then
    match s.lepId p.bank (s.lepOf die p) with
    | some id => let e := s.ept die p.bank id.toNat; if eMct e then e else 0
    | none => 0
  else s.ept die p.bank p.dstEp.toNat

/-- The request was issued by this package: its source entry is a local endpoint here. -/
def State.ownRequest (s : State) (die : Nat) (p : Packet) : Bool :=
  let e := s.ept die p.bank p.srcEp.toNat
  !eSvc e && coordOf (eCoord e) == s.coord

/-- The issuing domain of a request of this package has a new generation (R452). -/
def State.staleOwn (s : State) (die : Nat) (p : Packet) : Option Nat :=
  if s.ownRequest die p then
    match s.requestOf p with
    | some o => if p.rgen = s.gen o.dom ∨ (p.rgen = o.pkt.rgen ∧ o.gone = false) then none else some o.dom
    | none => none
  else none

/-- A memory or notification request at the ingress. -/
def windowed (p : Packet) : Bool := (accessOf p).isSome || p.typ == ptNotify

/-- The status with which ingress refuses a request (R280, R35, R37); none where it passes. While the package is reset, until it is
READY again, all that its fabric tables admit is answered FENCED (R456); the fabric manager is served in bring-up (R312). -/
def State.ingressStatus (s : State) (die : Nat) (p : Packet) : Option (BitVec 8) :=
  let n := s.lepOf die p
  if !entriesOk (s.ept die p.bank p.srcEp.toNat) (s.ingressEntry die p) p.tc then some stIsolation
  else if s.resetting (fun d => d == .package) || (s.sys.boot.due && p.typ != ptMgmt) then some stFenced
  else if windowed p && !s.winAllows n p then some stIsolation
  else if windowed p && (!s.winValid n || ((accessOf p).isSome && s.fencedPlace (placeOf (s.winAddr n p)))) then
    some stFenced
  else if (s.staleOwn die p).isSome then some stStale
  else none

/-- Refuses a request at ingress, with the counts of FAB_ERR and RST_GEN. -/
def State.refuse (s : State) (port : Nat) (p : Packet) (st : BitVec 8) : State :=
  let s := if st = stIsolation then s.fabErr (port / 18) feIsoIng else s
  let s := match s.staleOwn (port / 18) p with
    | some d => if st = stStale then s.bump (rRstGen (domOwner d)) 16 16 else s
    | none => s
  s.answer port p st

/-! ## Trackers (R288, R291, R292) -/

def State.trackerOf (s : State) (p : Packet) : Option Tracker :=
  (s.half (epDie p.srcEp)).trackers.find? fun t => t.isFor p (s.lepOf (epDie p.srcEp) p)

/-- A pennant with TRK = 1 may take effect (R291). -/
def Tracker.ready (t : Tracker) (p : Packet) : Bool :=
  decide (mget (fun _ => 0) t.counts p.epoch.toNat = p.pcount.toNat) &&
    ((p.epoch == 0 && !t.zeroDone) || t.done.contains (p.epoch - 1))

/-- The domain number under which operations that come by the fabric stand at a point of coherence. -/
def domFabric : Nat := 512

/-! ## Effects -/

/-- The LAUNCH of a context of which the core is a logical core (R159). -/
def State.notifyOk (s : State) (n : Nat) (p : Packet) (c : CoreAddr) : Bool :=
  n != 0 && qNamed p.rq && match s.launchOf c with
    | some l => l.ctx.val == s.winCtx n
    | none => false

/-- Adds 1 to a tally counter, which holds at 65,535 (R190). -/
def State.tallyUp (s : State) (c : CoreAddr) (q : Nat) : State :=
  s.modStore c fun x => { x with
    tally := mmod (fun _ => 0) x.tally q fun v => if v = 0xFFFF then v else v + 1 }

/-- A NOTIFY takes effect (R159, R169, R190, R455). -/
def State.notifyEffect (s : State) (port : Nat) (p : Packet) : State :=
  let die := port / 18
  let n := s.lepOf die p
  match unpackCore p.core with
  | none => s.refuse port p stIsolation
  | some c =>
    if !s.notifyOk n p c then s.refuse port p stIsolation
    else if !s.winValid n then s.refuse port p stFenced
    else
      let k := s.core c
      let q := p.rq.toNat % 16
      let done := fun (s : State) => (s.tookEffect p).answer port p stOk
      if k.st == .run || k.st == .barrier then done ((s.signalQ c q 1 slotHeader 0xFFFF).tallyUp c q)
      else if k.st == .stopped && k.failFence then done (s.tallyUp c q)
      else s.refuse port p stFenced

/-- A request that passed its checks, and if a pennant its tracker, takes effect at the point of coherence, whose end
answers it (R280, R291). -/
def State.effect (s : State) (port : Nat) (p : Packet) : State :=
  let n := s.lepOf (port / 18) p
  let pa := s.winAddr n p
  let who := Requester.packet port p
  if p.typ = ptWriteTile then
    match p.payload with
    | .tile img => s.tileWrite pa domFabric img who
    | _ => s
  else if p.typ = ptReadTile then s.tileRead pa domFabric (s.winCtx n) fmtUntyped who
  else if p.typ = ptWrite8 then s.word8Write pa domFabric p.data8 who
  else if p.typ = ptRead8 then s.word8Read pa domFabric who
  else if p.typ = ptNotify then s.notifyEffect port p
  else s

/-- Answers a pennant with the retry flag (R292). -/
def State.askRetry (s : State) (port : Nat) (p : Packet) : State :=
  let s := s.bump (rPtrk (dieOf (epDie p.srcEp))) 0 16
  s.respond port (responseTo p ptNack stFenced 1 .none)

/-- A pennant comes: it takes effect, is held, or is asked for again (R291, R292). -/
def State.pennantComes (s : State) (port : Nat) (p : Packet) : State :=
  if !p.pen || !p.trk then s.effect port p
  else match s.trackerOf p with
  | none => s.askRetry port p
  | some t =>
    if t.ready p then s.effect port p
    else
      let die := epDie p.srcEp
      let h := s.half die
      if 256 ≤ h.hold.length then s.askRetry port p
      else s.setHalf die { h with hold := h.hold ++ [(port, p)] }

/-- A request arrives at its destination (R273, R280). -/
def State.ingress (s : State) (port : Nat) (p : Packet) (f : State → State) : State :=
  let die := port / 18
  if !headerOk p then s.fabErr die feHcrc
  else match s.ingressStatus die p with
    | some st => s.refuse port p st
    | none => f s

/-- A memory or notification request of one type arrives. -/
def State.request (s : State) (port : Nat) (p : Packet) (typ : BitVec 4) : State :=
  if p.typ = typ then s.ingress port p fun s => s.pennantComes port p else s

/-! ## Commands of this family -/

/-- WRITE_TILE. -/
def execWriteTile (port : Fin 36) (pkt : Packet) (s : State) : Answer := .next (s.request port.val pkt ptWriteTile)

/-- READ_TILE. -/
def execReadTile (port : Fin 36) (pkt : Packet) (s : State) : Answer := .next (s.request port.val pkt ptReadTile)

/-- WRITE8. -/
def execWrite8 (port : Fin 36) (pkt : Packet) (s : State) : Answer := .next (s.request port.val pkt ptWrite8)

/-- READ8. -/
def execRead8 (port : Fin 36) (pkt : Packet) (s : State) : Answer := .next (s.request port.val pkt ptRead8)

/-- NOTIFY. -/
def execNotify (port : Fin 36) (pkt : Packet) (s : State) : Answer := .next (s.request port.val pkt ptNotify)

/-- Opens a tracker entry, or answers untracked where the tracker is full (R288). -/
def State.trackOpen (s : State) (port : Nat) (p : Packet) : State :=
  let die := epDie p.srcEp
  let h := s.half die
  let n := s.lepOf (port / 18) p
  let full : Bool := 32768 ≤ h.trackers.length
  let s := if full then s.bump (rPtrk (dieOf die)) 16 16
    else
      let t : Tracker := { src := p.srcEp, lep := BitVec.ofNat 6 n, tag := p.stream, counts := [], done := [], zeroDone := false }
      s.setHalf die { h with trackers := (h.trackers.filter fun x => !x.isFor p n) ++ [t] }
  s.respond port (responseTo p ptAck stOk (if full then 0 else 1) .none)

/-- OPEN. -/
def execOpenStream (port : Fin 36) (pkt : Packet) (s : State) : Answer :=
  .next (if pkt.typ = ptOpen then s.ingress port.val pkt fun s => s.trackOpen port.val pkt else s)

/-- Frees a tracker entry (R294). -/
def State.trackClose (s : State) (port : Nat) (p : Packet) : State :=
  let die := epDie p.srcEp
  let h := s.half die
  (s.setHalf die { h with trackers := h.trackers.filter fun t => !t.isFor p (s.lepOf (port / 18) p) }).answer port p stOk

/-- CLOSE. -/
def execCloseStream (port : Fin 36) (pkt : Packet) (s : State) : Answer :=
  .next (if pkt.typ = ptClose then s.ingress port.val pkt fun s => s.trackClose port.val pkt else s)

/-- PENNANT_EFFECT: the `n`th held pennant of a die takes effect once its epoch allows (R291). -/
def execPennantEffect (die : Fin 2) (n : Nat) (s : State) : Answer :=
  .next (match (s.half die.val).hold[n]? with
    | some (port, p) => match s.trackerOf p with
      | some t =>
        if t.ready p then
          let h := s.half die.val
          (s.setHalf die.val { h with hold := h.hold.eraseIdx n }).effect port p
        else s
      | none => s
    | none => s)

/-! ## Forwarding -/

/-- The axis on which a packet arrived by a port; none by a service port. -/
def portAxis (port : Nat) : Option Nat := if portRole port < 6 then some (portRole port / 2) else none

/-- A flit whose first byte is 0x00 is idle (R266). -/
def idleFlit (f : BitVec 512) : Bool := f.toNat % 256 == 0

/-- The router takes a packet's flits from its input queue, past idle ones, and returns their credits (R266, R269). -/
def State.takeFlits (s : State) (port : Nat) (p : Packet) : State :=
  let x := s.port port
  let n := packetFlits p
  (s.setPort port { x with flits := ((x.flits.dropWhile idleFlit).drop n).dropWhile idleFlit }).emit
    (.link port 3 (BitVec.ofNat 16 n))

/-- A packet that no way takes further is answered LINK_LOSS if it is a request, once for each member (R306, R307). -/
def State.lossAnswers (s : State) (port : Nat) (l : List Packet) : State :=
  l.foldl (fun s q =>
    (List.range (s.memberCount q)).foldl (fun s _ =>
      let s := s.fabErr (port / 18) feDetour
      if isRequest q.typ then s.answer port q stLinkLoss else s) s) s

/-- A RESYNC request names in DATA8 [5:0] the port of this package on the failed link; the answer gives the last block
accepted there (R305; DESIGN CHOICE, log entry 30). -/
def State.answerResync (s : State) (port : Nat) (p : Packet) : State :=
  let n := fieldN p.data8 0 6
  s.emit (.link port 4 ((s.port n).rxSeq - 1))

/-- Forwards a packet that arrived on a port, or hands it to this package (R273, R282, R285, R297, R306). -/
def State.forward (s : State) (port : Nat) (p : Packet) : State :=
  let die := port / 18
  if !headerOk p then (s.takeFlits port p).fabErr die feHcrc
  else
    let w := s.ways die (portAxis port) p
    if !s.waysOpen die w then s
    else
      let s := ((s.takeFlits port p).sendWays w).lossAnswers port w.lost
      match w.here with
      | some q => if q.typ = ptResync then s.answerResync port q else s.deliver die q
      | none => s

/-- PACKET_FORWARD. -/
def execPacketForward (port : Fin 36) (pkt : Packet) (s : State) : Answer := .next (s.forward port.val pkt)

/-- The source of a request on a service port is the endpoint attached to it (R282). -/
def State.serviceSourceOk (s : State) (port : Nat) (sport : Nat) (p : Packet) : Bool :=
  let e := s.ept (port / 18) p.bank p.srcEp.toNat
  eValid e && eSvc e && coordOf (eCoord e) == s.coord && eSport e == sport

/-- A refusal answered out of a service port. -/
def State.refuseService (s : State) (port : Nat) (p : Packet) (lo : Nat) : State :=
  (s.fabErr (port / 18) lo).sendOn port (sealed (responseTo p ptNack stIsolation 0 .none))

/-- A request arrives on a service port; it is sent on as a request that this package originates (R282, R299, R300). It
comes with its own pennant fields and is routed minimally (log entry 31). -/
def State.serviceRequest (s : State) (sport : Nat) (p : Packet) : State :=
  let port := servicePort sport
  let die := port / 18
  if !s.portUp port || !isRequest p.typ then s
  else if !headerOk p then s.fabErr die feHcrc
  else if !s.serviceSourceOk port sport p || p.bank != s.bank then s.refuseService port p feIsoIng
  else
    let entry := s.ept die p.bank p.dstEp.toNat
    if !entriesOk (s.ept die p.bank p.srcEp.toNat) entry p.tc then s.refuseService port p feIsoSrc
    else
      let q := s.addressed none p.bank p.srcEp entry p
      let w := s.ways die none q
      if !s.waysOpen die w then s
      else
        let s := ((s.sendWays w).addOrig p.bank (s.memberCount q)).lossAnswers port w.lost
        match w.here with
        | some r => s.deliver die r
        | none => s

/-- SERVICE_PORT_REQUEST. -/
def execServicePortRequest (sport : Fin 6) (pkt : Packet) (s : State) : Answer := .next (s.serviceRequest sport.val pkt)

end Sys2Proof.Machine
end

