-- ==== Sys2Proof/Machine/Links.lean ====
section
/-! DEFINITION. Ports, link blocks, link failure and Laser Source Modules (Tensor Fabric, R260 to R269, R303 to R309, R317,
R551; Firmware update and field service, R520, R521; Lands, signals and electrical ratings, R531). -/

namespace Sys2Proof.Machine

/-! ## Causes of LNK_PORT_n (Table 8.24) -/

def lcNone : Nat := 0
def lcLock : Nat := 1
def lcReplay : Nat := 2
def lcNoAck : Nat := 3
def lcPeerDark : Nat := 4
def lcMiswire : Nat := 5
def lcDisabled : Nat := 6
def lcLicence : Nat := 7
def lcIsolated : Nat := 8

def State.modPort (s : State) (n : Nat) (f : Port → Port) : State := s.setPort n (f (s.port n))

/-- WIDTH of a port from its halves. -/
def widthCode (low high : Bool) : Nat := (if low then 1 else 0) + if high then 2 else 0

/-- STATE, WIDTH and CAUSE of a port. -/
def State.showPort (s : State) (n state width cause : Nat) : State :=
  s.modReg (rPort n) fun x => setField (setField (setField x 60 4 state) 58 2 width) 50 4 cause

def State.portWidth (s : State) (n : Nat) : Nat := s.fld (rPort n) 58 2

/-! ## Resynchronisation (R305 to R307) -/

/-- The ports over which a RESYNC for port `n` may go: those that survive in its group, or else one of each live direction
on another axis, in the order of R305. None for a service port, whose peer is no router (log entry 93). -/
def State.resyncPaths (s : State) (n : Nat) : List Nat :=
  let d := portRole n
  let g := (s.groupUp d).filter fun m => m != n
  if 6 ≤ d then []
  else if !g.isEmpty then g
  else [2, 3, 4, 5, 0, 1].filterMap fun e => if e / 2 = d / 2 then none else (s.groupUp e).head?

/-- A RESYNC request to the peer of a port (R284, R305; DATA8 names the peer's port, log entry 30). -/
def State.resyncPacket (s : State) (n : Nat) : Packet :=
  let x := s.reg (rPort n)
  sealed { blankPacket with
    typ := ptResync, tc := tcControl, ph := true, min := true, dstCoord := field x 0 15, midCoord := field x 0 15
    data8 := BitVec.ofNat 64 (fieldN x 38 6) }

/-- Asks the peer for the last packet it accepted, on the first path. -/
def State.startResync (s : State) (n : Nat) : State :=
  let s := s.modPort n fun x => { x with resync := some (s.now, s.now) }
  match s.resyncPaths n with
  | m :: _ => s.sendOn m (s.resyncPacket n)
  | [] => s

/-- A port fails (R303, R551): it leaves its group, and its packets wait for the answer to RESYNC. -/
def State.failPort (s : State) (n cause : Nat) : State :=
  (s.showPort n portStateFailed 0 cause).startResync n

/-- Sends a packet of the replay buffer again, on a port of its group or a detour; it is answered LINK_LOSS where there is
neither (R305 to R307). -/
def State.resend (s : State) (n : Nat) (p : Packet) : State :=
  let d := portRole n
  match if d < 6 then s.leave (n / 18) (some (d / 2)) d p else none with
  | some (m, q) => s.sendOn m q
  | none => s.lossAnswers n [p]

/-- The packets of a replay buffer. -/
def Port.packets (x : Port) : List Packet := x.replay.filterMap TxBlock.last

/-- The packets whose last block the peer had not accepted when it had accepted block `last`. -/
def Port.after (x : Port) (last : BitVec 16) : List Packet :=
  x.replay.filterMap fun b => if (b.seq - last).toNat ≠ 0 ∧ (b.seq - last).toNat < 0x8000 then b.last else none

/-- The answer to RESYNC: every later packet is replayed (R305). -/
def State.resynced (s : State) (n : Nat) (last : BitVec 16) : State :=
  match (s.port n).resync with
  | none => s
  | some _ =>
    let l := (s.port n).after last
    let s := s.modPort n fun x => { x with replay := [], resync := none }
    l.foldl (fun s p => s.resend n p) s

/-- RESYNC. -/
def execResync (port : Fin 36) (last : BitVec 16) (s : State) : Answer := .next (s.resynced port.val last)

/-- RESYNC_RESEND: every 10 µs while there is no answer, over each path that is up (R307). -/
def execResyncResend (port : Fin 36) (s : State) : Answer :=
  .next (match (s.port port.val).resync with
    | some (t0, t1) =>
      if t1 + 10000 ≤ s.now ∧ s.now < t0 + 50000 then
        let s := s.modPort port.val fun x => { x with resync := some (t0, s.now) }
        (s.resyncPaths port.val).foldl (fun s m => s.sendOn m (s.resyncPacket port.val)) s
      else s
    | none => s)

/-- RESYNC_TIMEOUT: no answer in 50 µs; every packet of the replay buffer is answered LINK_LOSS (R305, R307). -/
def execResyncTimeout (port : Fin 36) (s : State) : Answer :=
  .next (match (s.port port.val).resync with
    | some (t0, _) =>
      if t0 + 50000 ≤ s.now then
        let l := (s.port port.val).packets
        (s.modPort port.val fun x => { x with replay := [], resync := none }).lossAnswers port.val l
      else s
    | none => s)

/-! ## Link blocks (Table 8.3, R266, R267, R269) -/

/-- Bits [lo+w-1:lo] of a block. -/
def bfld (b : BitVec 2176) (lo w : Nat) : BitVec w := (b >>> lo).setWidth w

/-- The LCRC of a block is right. -/
def lcrcOk (b : BitVec 2176) : Bool := decide (crc32c (bytesOf 2176 b 268) = bfld b 2144 32)

/-- The ACK of a block frees the entries up to it. -/
def Port.acked (x : Port) (ack : BitVec 16) (now : Nat) : Port :=
  { x with replay := x.replay.filter fun b => decide (0x8000 ≤ (ack - b.seq).toNat), ackAt := now }

/-- The credits of a block return (R269); 256 is a whole queue. -/
def Port.credited (x : Port) (q n : Nat) : Port :=
  if n = 0 ∨ 12 ≤ q then x
  else { x with credits := mput (fun _ => 256) x.credits q (Nat.min (x.credit q + n) 256) }

/-- NAK: every block kept is sent again; a block replayed 8 times in succession fails the port (R267, R303). -/
def State.replayBlocks (s : State) (n : Nat) : State :=
  let s := s.modPort n fun x => { x with replay := x.replay.map fun b => { b with sends := b.sends + 1 } }
  let s := (s.bump (rPerr n) 0 16).emit (.link n 2 (((s.port n).replay.head?.map TxBlock.seq).getD (s.port n).txSeq))
  if (s.port n).replay.any fun b => 8 < b.sends then s.failPort n lcReplay else s

/-- Flits of the packet that a header starts; none for the data of a collective, of which the header does not say it (R270,
Table 9.4). -/
def headFlits (h : BitVec 512) : Option Nat :=
  let t := h.toNat % 16
  if idleFlit h then some 1
  else if t = 1 ∨ t = 11 then some 67
  else if t = 9 ∧ (h >>> 456).toNat % 16 = 1 then none
  else some 1

/-- Where the last packet of a list of flits starts. -/
def lastStart : Nat → Nat → Nat → List (BitVec 512) → Nat
  | 0, _, last, _ => last
  | _, _, last, [] => last
  | n + 1, pos, last, h :: r =>
    match headFlits h with
    | none => pos
    | some k =>
      let last := if idleFlit h then last else pos
      lastStart n (pos + k) last ((h :: r).drop k)

/-- Input flits without the packet that ends in the last block: its flits are dropped and their credits return (R304; log entry
32). -/
def State.stomped (s : State) (n : Nat) : State :=
  let l := (s.port n).flits
  let k := lastStart l.length 0 0 l
  (s.modPort n fun x => { x with flits := l.take k }).emit (.link n 3 (BitVec.ofNat 16 (l.length - k)))

/-- A block that is good and in order. -/
def State.takeBlock (s : State) (n : Nat) (b : BitVec 2176) : State :=
  let flits := (List.range 4).map fun i => bfld b (512 * i) 512
  let s := s.modPort n fun x =>
    let x := (x.acked (bfld b 2064 16) s.now).credited (bfld b 2088 4).toNat (bfld b 2096 12).toNat
    { x with rxSeq := x.rxSeq + 1, rxBad := false, flits := x.flits ++ flits }
  let s := if b.getLsbD 2081 then s.stomped n else s
  let s := s.count (73 + 2 * n) 256
  if b.getLsbD 2080 && !(s.port n).replay.isEmpty then s.replayBlocks n else s

/-- A block arrives (R267): one with a bad LCRC or out of sequence is discarded, with every later one until replay, and
NAK is set. -/
def State.linkBlock (s : State) (n : Nat) (b : BitVec 2176) : State :=
  let x := s.port n
  if !(s.portUp n || s.portState n == portStateDraining) then s
  else if lcrcOk b && bfld b 2048 16 == x.rxSeq then s.takeBlock n b
  else if x.rxBad then s
  else (s.setPort n { x with rxBad := true }).emit (.link n 0 (x.rxSeq - 1))

/-- LINK_BLOCK. -/
def execLinkBlock (port : Fin 36) (block : BitVec 2176) (s : State) : Answer := .next (s.linkBlock port.val block)

/-! ## Failures and widths (R265, R303) -/

/-- PEER_DARK. -/
def execPeerDark (port : Fin 36) (s : State) : Answer :=
  .next (if s.portUp port.val || s.portState port.val == portStateDraining then s.failPort port.val lcPeerDark else s)

/-- NO_ACK_TIMEOUT: blocks unacknowledged and no ACK for 10 µs. -/
def execNoAckTimeout (port : Fin 36) (s : State) : Answer :=
  let x := s.port port.val
  .next (if (s.portUp port.val || s.portState port.val == portStateDraining) && !x.replay.isEmpty &&
      decide (x.ackAt + 10000 ≤ s.now) then s.failPort port.val lcNoAck else s)

/-- A half of a port is lost (R265). A port that used it and has its other half changes its width: it leaves its group,
its packets are replayed and it retrains; one that has no other half fails. -/
def State.halfLost (s : State) (n : Nat) (high : Bool) : State :=
  let used := s.portWidth n / (if high then 2 else 1) % 2 = 1
  let s := s.modPort n fun x => if high then { x with highBad := true } else { x with lowBad := true }
  let x := s.port n
  if !(s.portUp n || s.portState n == portStateDraining) ∨ ¬ used then s
  else if x.lowBad && x.highBad then s.failPort n lcLock
  else (s.showPort n portStateTraining 0 lcNone).startResync n

/-- The LSM that feeds a half of a port (R264). -/
def lsmOf (n : Nat) (high : Bool) : Nat := n / 18 * 6 + (n % 18 + if high then 3 else 0) % 6

/-- The halves that an LSM feeds. -/
def fedHalves (m : Nat) : List (Nat × Bool) :=
  (List.range 36).flatMap fun n => [false, true].filterMap fun h => if lsmOf n h = m then some (n, h) else none

def State.lsm (s : State) (m : Nat) : Lsm := mget (fun _ => Lsm.reset) s.fab.lsm m

def State.setLsm (s : State) (m : Nat) (x : Lsm) : State :=
  { s with fab := { s.fab with lsm := mput (fun _ => Lsm.reset) s.fab.lsm m x } }

def lsmEmpty : Nat := 0
def lsmOk : Nat := 1
def lsmDegraded : Nat := 2
def lsmFailed : Nat := 3
def lsmIdentBad : Nat := 4

def State.lsmState (s : State) (m : Nat) : Nat := s.fld (rLsm m) 60 4

/-- LANE_LOCK_LOSS. An LSM none of whose lanes holds lock is FAILED (R317). -/
def execLaneLockLoss (port : Fin 36) (high : Bool) (s : State) : Answer :=
  let m := lsmOf port.val high
  let s := s.halfLost port.val high
  .next (if (fedHalves m).all (fun e => if e.2 then (s.port e.1).highBad else (s.port e.1).lowBad) &&
      (s.lsmState m == lsmOk || s.lsmState m == lsmDegraded) then s.setFld (rLsm m) 60 4 lsmFailed else s)

/-! ## Training (R261 to R263, R265) -/

/-- The ports of a role in the order of their index (Table 8.1). -/
def rolePorts (d : Nat) : List Nat := (List.range 36).filter fun n => portRole n == d

/-- The peer that R261 requires of a torus port. -/
def State.cabledTo (s : State) (n : Nat) : Coord × Nat :=
  let d := portRole n
  let i := (rolePorts d).idxOf n
  (neighbour s.extents s.coord d, (rolePorts (if d % 2 = 0 then d + 1 else d - 1)).getD i 0)

/-- Why a port stays dark (R262, R263, Table 8.9); none where it may train. -/
def State.keptDark (s : State) (n : Nat) : Option Nat :=
  let d := portRole n
  let sport := n / 18 * 3 + (n % 18 - 15)
  if s.sys.pins.isolated then some lcIsolated
  else if bit (BitVec.ofNat 64 (leAt s.sys.record 0x38 8)) n then some lcDisabled
  else if d < 6 then (if axisOf d s.extents = 1 then some lcDisabled else none)
  else if s.fld rMgtLic 62 2 = 0 ∨ s.rbit rMgtLic 0 = false then some lcLicence
  else if leAt s.sys.record 0x30 4 / 4 ^ sport % 4 = 0 then some lcDisabled
  else none

/-- The optical transmitters may be lit: the package has a configuration, has reached LINKS, is not shut down or stopped, and
has VOPT (R387, R409, R417, R427). -/
def State.opticsOn (s : State) : Bool :=
  !s.sys.record.isEmpty && decide (phLinks ≤ s.phase ∧ s.phase ≤ phReady) && !s.sys.pins.shut &&
    !s.sys.pins.stopped && !s.sys.boot.lost.contains 10

/-- A list in ascending order without repeats, with one more element. -/
def insertUp (n : Nat) : List Nat → List Nat
  | [] => [n]
  | m :: r => if n < m then n :: m :: r else if n = m then m :: r else m :: insertUp n r

/-- While an update is applied or rolled back, a half that trains runs the code of the banks named (R511). -/
def State.loadedDsp (s : State) (l : List Nat) : State :=
  if s.fld rMgtUpdStat 60 4 = 4 ∨ s.fld rMgtUpdStat 60 4 = 5 then
    let h := l.foldl (fun a n => insertUp n a) s.sys.upd.halves
    { s with sys := { s.sys with upd := { s.sys.upd with halves := h } } }
  else s

/-- A port comes up with the halves that trained (R265). Counters of LNK_PERR_n are cleared, and the link layer starts
anew (log entry 33). -/
def State.portComesUp (s : State) (n : Nat) (low high : Bool) : State :=
  let s := s.modPort n fun x =>
    { x with lowBad := !low, highBad := !high, txSeq := 0, rxSeq := 0, rxBad := false, credits := [], flits := [], ackAt := s.now }
  let s := s.loadedDsp ((if low then [2 * n] else []) ++ if high then [2 * n + 1] else [])
  (s.showPort n portStateUp (widthCode low high) lcNone).setReg (rPerr n) 0

/-- Training of a port ends (R261 to R263). It ends only once the packets of an earlier failure are dealt with. -/
def State.trained (s : State) (n : Nat) (peer : BitVec 15) (peerPort : BitVec 6) (lowOk highOk : Bool) : State :=
  if s.portUp n || s.portState n == portStateDraining || !s.rbit (rPort n) 49 || !s.opticsOn || (s.port n).resync.isSome then s
  else match s.keptDark n with
    | some c => s.showPort n portStateDark 0 c
    | none =>
      let low := lowOk && (s.lsm (lsmOf n false)).lit
      let high := highOk && (s.lsm (lsmOf n true)).lit
      let s := s.modReg (rPort n) fun x => setField (setField x 38 6 peerPort.toNat) 0 15 peer.toNat
      if portRole n < 6 ∧ (coordOf peer, peerPort.toNat) ≠ s.cabledTo n then s.showPort n portStateFailed 0 lcMiswire
      else if low || high then s.portComesUp n low high
      else s.showPort n portStateFailed 0 lcLock

/-- PORT_TRAIN. -/
def execPortTrain (port : Fin 36) (peer : BitVec 15) (peerPort : BitVec 6) (lowOk highOk : Bool) (s : State) : Answer :=
  .next (s.trained port.val peer peerPort lowOk highOk)

/-- PORT_RETRAIN: a port that changed its width rejoins its group (R265). -/
def execPortRetrain (port : Fin 36) (lowOk highOk : Bool) (s : State) : Answer :=
  let n := port.val
  .next (if s.portState n == portStateTraining && (s.port n).resync.isNone && s.opticsOn then
    let low := lowOk && (s.lsm (lsmOf n false)).lit
    let high := highOk && (s.lsm (lsmOf n true)).lit
    if low || high then s.portComesUp n low high else s.showPort n portStateFailed 0 lcLock
  else s)

/-! ## Out of service (R308) -/

/-- A write of LNK_PORT_n: clearing EN takes the port out of service, setting it lets the port train. -/
def State.portEnable (s : State) (n : Nat) (en : Bool) : State :=
  let was := s.rbit (rPort n) 49
  let s := s.setRBit (rPort n) 49 en
  if was && !en then
    if s.portUp n then s.setFld (rPort n) 60 4 portStateDraining else s.showPort n portStateDark 0 lcDisabled
  else if !was && en && s.portState n == portStateDark then s.showPort n portStateTraining 0 lcNone
  else s

/-- PORT_DISABLE. -/
def execPortDisable (src : RegSource) (port : Fin 36) (v : Word) (s : State) : Answer :=
  .next (s.onWrite src (rPort port.val) fun s => s.portEnable port.val (bit v 49))

/-- PORT_DRAIN_DONE: every block has been acknowledged. -/
def execPortDrainDone (port : Fin 36) (s : State) : Answer :=
  .next (if s.portState port.val == portStateDraining && (s.port port.val).replay.isEmpty then
    s.showPort port.val portStateDark 0 lcDisabled else s)

/-! ## Laser Source Modules (R264, R265, R520, R521, R531) -/

/-- The Powered Time Counter, seconds. -/
def State.ptc (s : State) : Word := s.reg rObsPtc

/-- Writes the hours back to the module; `acked` says whether it acknowledged (R521). -/
def State.writeBack (s : State) (m : Nat) (acked : Bool) : State :=
  let x := s.lsm m
  if !x.present then s
  else
    let s := s.emit (.lsmWrite m (field (s.reg (rLsm m)) 0 32))
    if acked then s.setLsm m { x with backPtc := s.ptc.setWidth 32 } else s

/-- An LSM stops feeding its lanes; a module switched off or gone reads EMPTY. -/
def State.darken (s : State) (m : Nat) : State :=
  let s := (s.setLsm m { s.lsm m with lit := false }).setFld (rLsm m) 60 4 lsmEmpty
  (fedHalves m).foldl (fun s e => s.halfLost e.1 e.2) s

/-- Lights a module whose identity check passed; the halves it feeds retrain (Table 15.6). -/
def State.light (s : State) (m : Nat) : State :=
  let x := s.lsm m
  if !(x.present && x.identOk) || x.lit || s.rbit (rLsmCtl m) 63 || !s.opticsOn then s
  else
    let s := s.setLsm m { x with lit := true, hourAt := s.ptc }
    let s := s.setFld (rLsm m) 60 4 (if s.fld (rLsm m) 52 8 < 90 then lsmDegraded else lsmOk)
    (fedHalves m).foldl (fun s e =>
      let s := s.modPort e.1 fun p => if e.2 then { p with highBad := false } else { p with lowBad := false }
      if s.portUp e.1 then (s.showPort e.1 portStateTraining 0 lcNone).startResync e.1
      else if s.portState e.1 == portStateFailed && s.fld (rPort e.1) 50 4 == lcLock then
        s.showPort e.1 portStateTraining 0 lcNone
      else s) s

/-- LSM_INSERT: the identity memory is read and checked, and the module is lit if it passes. -/
def execLsmInsert (m : Fin 12) (identOk : Bool) (serial : BitVec 128) (hours rated : BitVec 32) (power : BitVec 8)
    (s : State) : Answer :=
  let s := s.setLsm m.val { s.lsm m.val with present := true, identOk := identOk, serial := serial, rated := rated, lit := false }
  let st := if !identOk then lsmIdentBad else lsmEmpty
  let s := s.setReg (rLsm m.val) (setField (setField (setField 0 60 4 st) 52 8 power.toNat) 0 32 hours.toNat)
  .next (s.light m.val)

/-- LSM_REMOVE: a module is taken out, or is silent for 10 ms. -/
def execLsmRemove (m : Fin 12) (s : State) : Answer :=
  let lit := (s.lsm m.val).lit
  let s := s.setLsm m.val { s.lsm m.val with present := false, identOk := false }
  .next (if lit then s.darken m.val else s.setFld (rLsm m.val) 60 4 lsmEmpty)

/-- A write of LNK_LSM_CTL_m (Table 15.10). -/
def State.lsmCtl (s : State) (m : Nat) (v : Word) (acked : Bool) : State :=
  let was := s.rbit (rLsmCtl m) 63
  let s := s.setRBit (rLsmCtl m) 63 (bit v 63)
  let s := if bit v 62 || (bit v 63 && !was) then s.writeBack m acked else s
  if bit v 63 && !was && (s.lsm m).lit then s.darken m
  else if !bit v 63 && was then s.light m
  else s

/-- LSM_OFF. -/
def execLsmOff (src : RegSource) (m : Fin 12) (v : Word) (acked : Bool) (s : State) : Answer :=
  .next (s.onWrite src (rLsmCtl m.val) fun s => s.lsmCtl m.val v acked)

/-- LSM_WRITE_BACK. -/
def execLsmWriteBack (src : RegSource) (m : Fin 12) (v : Word) (acked : Bool) (s : State) : Answer :=
  .next (s.onWrite src (rLsmCtl m.val) fun s => s.lsmCtl m.val v acked)

/-- LSM_HOURS: 3,600 s of laser-on time have passed. -/
def execLsmHours (m : Fin 12) (acked : Bool) (s : State) : Answer :=
  let x := s.lsm m.val
  .next (if x.lit && decide (3600 ≤ (s.ptc - x.hourAt).toNat) then
    ((s.setLsm m.val { x with hourAt := x.hourAt + 3600 }).modReg (rLsm m.val) fun r => bumpHold r 0 32).writeBack m.val acked
  else s)

/-- LSM_DEGRADED: the optical output has fallen below 90 % (R317). -/
def execLsmDegraded (m : Fin 12) (power : BitVec 8) (s : State) : Answer :=
  .next (if (s.lsm m.val).lit && decide (power.toNat < 90) then
    let s := s.setFld (rLsm m.val) 52 8 power.toNat
    if s.lsmState m.val == lsmOk then s.setFld (rLsm m.val) 60 4 lsmDegraded else s
  else s)

end Sys2Proof.Machine
end

