-- ==== Sys2Proof/Machine/Vector.lean ====
section
/-! DEFINITION. The operations of the vector unit (Fenyo instruction set, V slot, R147 to R152, R545 to R547, R552), as
functions of a core. Their legality is in Sys2Proof.Machine.Bundle. -/

namespace Sys2Proof.Machine

/-! ## Elementwise arithmetic (R148, Table 4.11) -/

/-- Writes v[VD]: element i of width w is `g` of elements i of VA, VB and VC, where PRED enables it. -/
def Core.vMap (k : Core) (f : FVR) (w : Nat) (g : Nat → Nat → Nat → Nat) : Core :=
  let a := k.getV f.va.toNat
  let b := k.getV f.vb.toNat
  let c := k.getV f.vc.toNat
  let p := k.getP f.pred.toNat
  k.setV f.vd.toNat (vBuild (k.getV f.vd.toNat) w (predOn p w) fun i => g (vElem a w i) (vElem b w i) (vElem c w i))

/-- A NaN that arithmetic gives: quiet; its sign and payload are free (log entry 7). -/
def nanCode (f : EFmt) (a b c : Nat) : Nat :=
  let x := (Config.nanBits (BitVec.ofNat 32 a) (BitVec.ofNat 32 b) (BitVec.ofNat 32 c)).toNat
  match f with
  | .bf16 => 0x7FC0 + x % 0x40 + x / 0x80000000 * 0x8000
  | _ => 0x7FC00000 + x % 0x400000 + x / 0x80000000 * 0x80000000

/-- A float operation on elements: its exact result, rounded once. -/
def Core.vFloat (k : Core) (f : FVR) (g : Rm → Val → Val → Val → Val) : Core :=
  let fm := floatFmt f.ty
  let rm := floatRm f.rm
  k.vMap f fm.bits fun a b c =>
    (packVal fm rm (g rm (decodeElem fm a) (decodeElem fm b) (decodeElem fm c))).getD (nanCode fm a b c)

def Core.vfma (k : Core) (f : FVR) : Core := k.vFloat f fun rm a b c => addVal rm (mulVal a b) c
def Core.vadd (k : Core) (f : FVR) : Core := k.vFloat f fun rm a b _ => addVal rm a b
def Core.vsub (k : Core) (f : FVR) : Core := k.vFloat f fun rm a b _ => addVal rm a (negVal b)
def Core.vmul (k : Core) (f : FVR) : Core := k.vFloat f fun _ a b _ => mulVal a b

/-- The one NaN of VMIN and VMAX (R547). -/
def minMaxNan (f : EFmt) : Nat := if f = .bf16 then 0x7FC0 else 0x7FC00000

/-- VMIN and VMAX: `pick a b` says that a is taken (R547). -/
def Core.vPick (k : Core) (f : FVR) (pick : Val → Val → Bool) : Core :=
  let fm := floatFmt f.ty
  k.vMap f fm.bits fun a b _ =>
    let x := decodeElem fm a
    let y := decodeElem fm b
    if isNan x || isNan y then minMaxNan fm else if pick x y then a else b

def Core.vmin (k : Core) (f : FVR) : Core := k.vPick f fun x y => below x y
def Core.vmax (k : Core) (f : FVR) : Core := k.vPick f fun x y => below y x

/-- VCMP: writes the bits of p[VD] that govern the enabled elements; two 16-bit elements share a bit. -/
def Core.vcmp (k : Core) (f : FVR) : Core :=
  let isInt := f.vc.getLsbD 3
  let w := if isInt then intWidth f.ty else (floatFmt f.ty).bits
  let code := f.vc.toNat % 8
  let a := k.getV f.va.toNat
  let b := k.getV f.vb.toNat
  let cond := fun i =>
    if isInt then vcmpInt code w (vElem a w i) (vElem b w i) else vcmpFloat (floatFmt f.ty) code (vElem a w i) (vElem b w i)
  let p := k.getP f.pred.toNat
  let n := if w = 64 then 64 else 128
  let pd := f.vd.toNat % 8
  let step := fun (d : BitVec 128) j =>
    let bitNo := if w = 64 then 2 * j else j
    let r := if w = 16 then cond (2 * j) && cond (2 * j + 1) else cond j
    if p.getLsbD bitNo then setPredBit d bitNo r else d
  k.setP pd ((List.range n).foldl step (k.getP pd))

/-! ## Integer and logical operations -/

def Core.vInt (k : Core) (f : FVR) (g : (w : Nat) → BitVec w → BitVec w → BitVec w) : Core :=
  let w := intWidth f.ty
  k.vMap f w fun a b _ => (g w (BitVec.ofNat w a) (BitVec.ofNat w b)).toNat

def Core.viadd (k : Core) (f : FVR) : Core := k.vInt f fun _ a b => a + b
def Core.visub (k : Core) (f : FVR) : Core := k.vInt f fun _ a b => a - b
def Core.vand (k : Core) (f : FVR) : Core := k.vInt f fun _ a b => a &&& b
def Core.vor (k : Core) (f : FVR) : Core := k.vInt f fun _ a b => a ||| b
def Core.vxor (k : Core) (f : FVR) : Core := k.vInt f fun _ a b => a ^^^ b
def Core.vshl (k : Core) (f : FVR) : Core := k.vInt f fun w a b => a <<< (b.toNat % w)
def Core.vshr (k : Core) (f : FVR) : Core := k.vInt f fun w a b => a >>> (b.toNat % w)
def Core.vsra (k : Core) (f : FVR) : Core := k.vInt f fun w a b => a.sshiftRight (b.toNat % w)

/-- VSEL: bits of a or b under predicate VC. -/
def Core.vsel (k : Core) (f : FVR) : Core :=
  let w := intWidth f.ty
  let a := k.getV f.va.toNat
  let b := k.getV f.vb.toNat
  let c := k.getP (f.vc.toNat % 8)
  let p := k.getP f.pred.toNat
  k.setV f.vd.toNat (vBuild (k.getV f.vd.toNat) w (predOn p w)
    fun i => if predOn c w i then vElem a w i else vElem b w i)

/-- VBCST: the low bits of a scalar register. -/
def Core.vbcst (k : Core) (f : FVR) : Core :=
  let w := intWidth f.ty
  let x := (k.getS (f.va.toNat % 32)).toNat % 2 ^ w
  k.setV f.vd.toNat (vBuild (k.getV f.vd.toNat) w (predOn (k.getP f.pred.toNat) w) fun _ => x)

/-- VEXT: one 64-bit element, under the whole-slot rule. -/
def Core.vext (k : Core) (f : FVR) : Core :=
  if k.enabled f.pred then
    let i := (k.getS (f.vb.toNat % 32)).toNat % 64
    k.setS (f.vd.toNat % 32) (BitVec.ofNat 64 (vElem (k.getV f.va.toNat) 64 i))
  else k

/-- VPERM: d[i] = a[b[i] mod n]. -/
def Core.vperm (k : Core) (f : FVR) : Core :=
  let w := intWidth f.ty
  let a := k.getV f.va.toNat
  let b := k.getV f.vb.toNat
  k.setV f.vd.toNat (vBuild (k.getV f.vd.toNat) w (predOn (k.getP f.pred.toNat) w)
    fun i => vElem a w (vElem b w i % (4096 / w)))

/-! ## Wide KS64 lanes (R151) -/

def wideInv : BitVec 128 := 0x80000000000000000000000000000000#128
def wideSat : BitVec 128 := 0x80000000000000000000000000000001#128

/-- VKADDW on one lane. -/
def wideAdd (a : BitVec 128) (b : Word) : BitVec 128 :=
  if a = wideInv ∨ b = ksInv then wideInv
  else if a = wideSat ∨ b = ksSatPos ∨ b = ksSatNeg then wideSat
  else a + b.signExtend 128

/-- VKNAR on one lane. -/
def wideNarrow (a : BitVec 128) : Word :=
  if a = wideInv then ksInv
  else if a = wideSat ∨ 2 ^ 63 - 2 < a.toInt.natAbs then (if 0 < a.toInt then ksSatPos else ksSatNeg)
  else a.setWidth 64

/-- Wide lane `i` of the pair at v[n]. -/
def Core.wideLane (k : Core) (n i : Nat) : BitVec 128 :=
  BitVec.ofNat 128 (bitsAt (k.getV (n + i / 32)) (128 * (i % 32)) 128)

def Core.vkaddw (k : Core) (f : FVR) : Core :=
  let d := f.vd.toNat
  let p := k.getP f.pred.toNat
  let b := k.getV f.vb.toNat
  let lane := fun i =>
    if p.getLsbD (2 * i) then wideAdd (k.wideLane f.va.toNat i) (BitVec.ofNat 64 (vElem b 64 i)) else k.wideLane d i
  let half := fun h => BitVec.ofNat 4096 (packNat 128 ((List.range 32).map fun i => (lane (32 * h + i)).toNat))
  (k.setV d (half 0)).setV (d + 1) (half 1)

def Core.vknar (k : Core) (f : FVR) : Core :=
  let p := k.getP f.pred.toNat
  k.setV f.vd.toNat (vBuild (k.getV f.vd.toNat) 64 (predOn p 64) fun i => (wideNarrow (k.wideLane f.va.toNat i)).toNat)

/-! ## Conversions (R149, R150, R545, R546, R552, Table 4.12) -/

/-- The bit of the narrow side at which narrow element `i` of an operation lies. -/
def narrowBit (f : EFmt) (part i : Nat) : Nat :=
  match f with
  | .bf16 => 2048 * part + 16 * i
  | .e2m1 => 512 * part + 4 * i
  | .e2m3 | .e3m2 => 1024 * part + 512 * (i / 64) + 6 * (i % 64)
  | _ => 1024 * part + 8 * i

/-- SR inputs of a conversion: seed s[SX], destination s[SX + 1] >> 12 (R149). -/
def Core.cvtSr (k : Core) (f : FVX) (e : Nat) : Nat :=
  srValue (k.getS f.sx.toNat) (k.getS (f.sx.toNat + 1) >>> 12) e

/-- What an FP32 element becomes in a format without block scales, and whether it overflowed: infinities keep their sign
for BF16, and are invalid elsewhere (R77). `scale` is the tensor scale's exponent. -/
def cvtPlain (f : EFmt) (rm : Rm) (r : Nat) (scale : Int) (v : Val) : Nat × Bool :=
  match v with
  | .nan => (invalidCode f, false)
  | .inf n => if f = .bf16 then (signed .bf16 n (infCode .bf16), false) else (invalidCode f, false)
  | .fin d => roundTo f rm r (d.scale (-scale))

/-- FP32 to BF16, FP8 or INT8. -/
def Core.cvtToPlain (k : Core) (f : FVX) (fm : EFmt) : Core :=
  let a := k.getV f.va.toNat
  let p := k.getP f.pred.toNat
  let part := f.part.toNat
  let rm := cvtRm f.rm
  let scale : Option Int := if fm = .bf16 then some 0 else e8m0 (scaleByte (k.getS f.vs.toNat) 0).toNat
  let res := fun i => match scale with
    | none => (invalidCode fm, false)
    | some x => cvtPlain fm rm (k.cvtSr f (128 * part + i)) x (decodeElem .fp32 (vElem a 32 i))
  let on := (List.range 128).filter fun i => p.getLsbD i
  let d := on.foldl (fun d i => vSet d (narrowBit fm part i) fm.bits (res i).1) (k.getV f.vd.toNat)
  ((k.setV f.vd.toNat d).flagIf (on.any fun i => (res i).2) Core.setOvf).flagIf scale.isNone Core.setInv

/-- FP32 to an MX format: the scale of a block is computed from all 32 of its values (R73, R552). -/
def Core.cvtToMx (k : Core) (f : FVX) (fm : EFmt) : Core :=
  let a := k.getV f.va.toNat
  let p := k.getP f.pred.toNat
  let part := f.part.toNat
  let rm := cvtRm f.rm
  let val := fun i => (decodeElem .fp32 (vElem a 32 i)).finite
  let scales := (List.range 4).map fun j => mxScale fm ((List.range 32).map fun i => val (32 * j + i))
  let res := fun i => outMx fm rm (k.cvtSr f (128 * part + i)) (scales.getD (i / 32) 0) (val i)
  let on := (List.range 128).filter fun i => p.getLsbD i
  let d := k.getV f.vd.toNat
  -- the reserved bytes of an MXFP6 row are written as zero (R47)
  let d := if fm.bits = 6 then
      [0, 1].foldl (fun d r => if on.any fun i => i / 64 == r then vSet d (1024 * part + 512 * r + 384) 128 0 else d) d
    else d
  let d := on.foldl (fun d i => vSet d (narrowBit fm part i) fm.bits (res i).1) d
  let k := k.setV f.vd.toNat d
  let sc := (List.range 4).foldl (fun v j =>
    if on.any fun i => i / 32 == j then vSet v (8 * (4 * part + j)) 8 (scales.getD j 0) else v) (k.getV f.vs.toNat)
  -- one register for elements and scales: a bit that both write has a free value (log entry 91)
  let both := on.foldl (fun m i => vSet m (narrowBit fm part i) fm.bits (2 ^ fm.bits - 1)) 0 &&&
    ~~~Config.scaleOver a
  let sc := if f.vs.toNat = f.vd.toNat then (sc &&& ~~~both) ||| (d &&& both) else sc
  (k.setV f.vs.toNat sc).flagIf (on.any fun i => (res i).2) Core.setOvf

/-- An exact value as FP32: the invalid marker for an invalid one (Table 2.8). -/
def toFp32 : Option Dy → Nat × Bool
  | none => (invalidCode .fp32, false)
  | some d => roundTo .fp32 .rne 0 d

/-- BF16, FP8, INT8 or an MX format to FP32. -/
def Core.cvtFromNarrow (k : Core) (f : FVX) (fm : EFmt) (mx : Bool) : Core :=
  let a := k.getV f.va.toNat
  let p := k.getP f.pred.toNat
  let part := f.part.toNat
  let code := fun i => bitsAt a (narrowBit fm part i) fm.bits
  let scale := fun i =>
    if mx then e8m0 (vByte (k.getV f.vs.toNat) (4 * part + i / 32)) else e8m0 (scaleByte (k.getS f.vs.toNat) 0).toNat
  let res := fun i =>
    if fm = .bf16 then (code i * 0x10000, false)
    else toFp32 (match (decodeElem fm (code i)).finite, scale i with
      | some d, some x => some (d.scale x)
      | _, _ => none)
  let d := vBuild (k.getV f.vd.toNat) 32 (fun i => p.getLsbD i) fun i => (res i).1
  (k.setV f.vd.toNat d).flagIf ((List.range 128).any fun i => p.getLsbD i && (res i).2) Core.setOvf

/-- The value of a KS64 code under an anchor; none for the invalid and saturated codes (Table 2.6). -/
def ksValue (anchor : Int) (m : Word) : Option Dy :=
  if m = ksInv ∨ m = ksSatPos ∨ m = ksSatNeg then none
  else some ⟨decide (m.toInt < 0), m.toInt.natAbs, anchor - 40⟩

/-- The anchor of the KS64 codes: bits [15:0] of s[VS]. -/
def Core.cvtAnchor (k : Core) (f : FVX) : Int := (field (k.getS f.vs.toNat) 0 16).toInt

/-- The anchor lies in the range of R53 (R150). -/
def anchorOk (a : Int) : Bool := decide (-512 ≤ a ∧ a ≤ 511)

/-- KS64 to FP32 or BF16: rounded once (R69, R72). -/
def Core.cvtFromKs (k : Core) (f : FVX) (fm : EFmt) : Core :=
  let a := k.getV f.va.toNat
  let p := k.getP f.pred.toNat
  let part := f.part.toNat
  let rm := cvtRm f.rm
  let res := fun i =>
    let (c, o) := outPlain fm rm (k.cvtSr f (64 * part + i)) (ksValue (k.cvtAnchor f) (BitVec.ofNat 64 (vElem a 64 i)))
    (plusZero fm c, o)
  let on := (List.range 64).filter fun i => p.getLsbD (2 * i)
  let d := on.foldl (fun d i => vSet d (64 * fm.bits * part + fm.bits * i) fm.bits (res i).1) (k.getV f.vd.toNat)
  (k.setV f.vd.toNat d).flagIf (on.any fun i => (res i).2) Core.setOvf

def Core.vcvtTo (k : Core) (f : FVX) : Core :=
  match outFmt f.fmt with
  | some (.plain fm) => k.cvtToPlain f fm
  | some (.mx fm) => k.cvtToMx f fm
  | _ => k

def Core.vcvtFrom (k : Core) (f : FVX) : Core :=
  match outFmt f.fmt with
  | some (.plain fm) => k.cvtFromNarrow f fm false
  | some (.mx fm) => k.cvtFromNarrow f fm true
  | some .ks64 => k.cvtFromKs f .fp32
  | some .ks64bf16 => k.cvtFromKs f .bf16
  | _ => k

/-! ## Scale-maximum registers (R152) -/

/-- Folds one scale byte into a state word: NAN 9, SEEN 8, MAX [7:0]. -/
def smFold (w : BitVec 10) (u : Nat) : BitVec 10 :=
  if u = 255 then w ||| 0x300
  else (w &&& 0x200) ||| 0x100 ||| BitVec.ofNat 10 (max (w.toNat % 256) u)

/-- Folds a state word into another: NAN and SEEN are ORed, MAX is taken from the sides that have seen a scale. -/
def smMerge (w x : BitVec 10) : BitVec 10 :=
  let side := fun (y : BitVec 10) => if y.getLsbD 8 then y.toNat % 256 else 0
  let nan := w.getLsbD 9 || x.getLsbD 9 || (x.getLsbD 8 && x.toNat % 256 == 255)
  BitVec.ofNat 10 ((if nan then 512 else 0) + (if w.getLsbD 8 || x.getLsbD 8 then 256 else 0) + max (side w) (side x))

def Core.getSm (k : Core) (b : Bool) : BitVec 10 := if b then k.smb else k.sma
def Core.setSm (k : Core) (b : Bool) (w : BitVec 10) : Core := if b then { k with smb := w } else { k with sma := w }

def Core.vscan (k : Core) (f : FVN) : Core :=
  if k.enabled f.pred then
    let a := k.getV f.va.toNat
    k.setSm f.sm ((List.range (64 * (f.nr.toNat + 1))).foldl (fun w i => smFold w (vByte a i)) (k.getSm f.sm))
  else k

def Core.vsmr (k : Core) (f : FVQ) : Core :=
  if k.enabled f.pred then k.setS f.rs.toNat ((k.getSm f.sm).setWidth 64) else k

def Core.vsmw (k : Core) (f : FVQ) : Core :=
  if k.enabled f.pred then k.setSm f.sm (smMerge (k.getSm f.sm) ((k.getS f.rs.toNat).setWidth 10)) else k

/-- The state word of VSMW has no bit above 9 (R152). -/
def Core.vsmwOk (k : Core) (f : FVQ) : Bool := decide (k.getS f.rs.toNat >>> 10 = 0)

end Sys2Proof.Machine
end

