-- ==== Sys2Proof/Machine/Slots.lean ====
section
/-! DEFINITION. What the slots of a bundle do at issue (Fenyo instruction set; The Fenyo tensor core, R83, R87, R88, R94 to
R103, R109 to R113, R137 to R165, R189, R193). V and L operations complete at issue; T, M and release or load operations
stay in flight until their completion is commanded. -/

namespace Sys2Proof.Machine

/-- What a slot does when its bundle reaches issue. -/
inductive SlotRes where
  | ok (s : State)
  /-- an exception detected at issue: code and address -/
  | exc (code : BitVec 8) (addr : Word)
  /-- the bundle waits at issue (R103) -/
  | hold
deriving DecidableEq, Repr

/-! ## Checks of a local access, in the order of Table 4.19 -/

/-- Alignment (R88), then bounds and the code region (R153) of `n` bytes at a local address. -/
def Core.localCheck (k : Core) (a : Word) (align n : Nat) : Option (BitVec 8) :=
  if a.toNat % align ≠ 0 then some xcAlign else if !k.localOk a.toNat n then some xcAddress else none

/-- Runs `f` if no check fails; `addr` is reported. -/
def checked (e : Option (BitVec 8)) (addr : Word) (f : SlotRes) : SlotRes :=
  match e with
  | some code => .exc code addr
  | none => f

/-! ## T slot -/

/-- An operand tile: of a t register, or fetched from core-local memory (R137). -/
def State.tileSrc (s : State) (c : CoreAddr) (mem : Bool) (t : BitVec 4) : TileSrc :=
  let k := s.core c
  if mem then
    let a := (k.getS (memReg t)).toNat
    ⟨s.mem.localTileImg (s.physD c) (a / 4096), some a⟩
  else ⟨(k.getT t.toNat).img, none⟩

/-- The address checks of an operand tile. -/
def Core.srcCheck (k : Core) (mem : Bool) (t : BitVec 4) (tiles : Nat) : Option (BitVec 8) :=
  if mem then k.localCheck (k.getS (memReg t)) 4096 (4096 * tiles) else none

/-- A tile in a t register must carry the format (R49); one fetched from memory is checked when it arrives. -/
def TileSrc.regFmt (x : TileSrc) (fmt : BitVec 8) : Bool := x.addr.isSome || x.img.tcr.fmt == fmt

/-- Puts an operation in flight. -/
def State.launchOp (s : State) (c : CoreAddr) (slot : BitVec 3) (b : BitVec 16) (q : BitVec 5) (r w : List RegName)
    (ranges : List LocalRange) (out : Option Nat) (kind : FlightKind) : State :=
  s.modCore c fun k =>
    { k with
      flights := k.flights ++ [⟨k.nextId, slot, b, q, r, w, ranges, out, false, kind⟩]
      nextId := k.nextId + 1 }

/-- The format code that an operand field names. -/
def kfmtCode (f : BitVec 3) : BitVec 8 := formatCode (kfmt f).1 (kfmt f).2

/-- Both operands are MX, both plain FP8, or both INT8 (R55). -/
def pairOk (a b : BitVec 3) : Bool :=
  (mxCode a && mxCode b) || (!mxCode a && !mxCode b && ((a == 7) == (b == 7)))

/-- Registers that a T operation names, and its local ranges. -/
def srcRegs (mem : Bool) (t : BitVec 4) (n : Nat) : List RegName :=
  if mem then [.s (memReg t)] else (List.range n).map fun i => .t (t.toNat + i)

def Core.srcRanges (k : Core) (mem : Bool) (t : BitVec 4) (n : Nat) (write : Bool) : List LocalRange :=
  if mem then let a := (k.getS (memReg t)).toNat; [⟨a, a + 4096 * n, write⟩] else []

def slotTmma (c : CoreAddr) (b : BitVec 16) (f : FTM) (s : State) : SlotRes :=
  let k := s.core c
  let kd := f.kd.toNat
  let xa := s.tileSrc c f.ma f.ta
  let xb := s.tileSrc c f.mb f.tb
  let mx := mxCode f.fa
  let ts := f.scl.toNat / 8
  let si := f.scl.toNat % 8
  let strip := k.getT ts
  let scal := k.getS (f.scl.toNat / 4)
  checked (k.srcCheck f.ma f.ta 1) (k.getS (memReg f.ta)) <| checked (k.srcCheck f.mb f.tb 1) (k.getS (memReg f.tb)) <|
  if !pairOk f.fa f.fb || !xa.regFmt (kfmtCode f.fa) || !xb.regFmt (kfmtCode f.fb) || (mx && strip.fmt != fmtE8M0) then
    .exc xcFormat 0
  else if !(k.getK kd).keystone then .exc xcMode 0
  else
    let s := s.launchOp c slotT b 0
      ([.k kd, if mx then .t ts else .s (f.scl.toNat / 4)] ++ srcRegs f.ma f.ta 1 ++ srcRegs f.mb f.tb 1) [.k kd]
      (k.srcRanges f.ma f.ta 1 false ++ k.srcRanges f.mb f.tb 1 false) none
      (.keyMul kd xa xb f.fa f.fb (stripOf strip.data (2 * si)) (stripOf strip.data (2 * si + 1))
        (scaleByte scal 0) (scaleByte scal 1) f.half)
    .ok (s.countLocal c false (64 * ((if f.ma then 1 else 0) + if f.mb then 1 else 0)))

def slotTfma (c : CoreAddr) (b : BitVec 16) (f : FTF) (s : State) : SlotRes :=
  let k := s.core c
  let kd := f.kd.toNat
  let xa := s.tileSrc c f.ma f.ta
  let xb := s.tileSrc c f.mb f.tb
  let fmt := formatCode (if f.fp then .fp32 else .bf16) false
  checked (k.srcCheck f.ma f.ta 1) (k.getS (memReg f.ta)) <| checked (k.srcCheck f.mb f.tb 1) (k.getS (memReg f.tb)) <|
  if !xa.regFmt fmt || !xb.regFmt fmt then .exc xcFormat 0
  else if (k.getK kd).keystone then .exc xcMode 0
  else
    let s := s.launchOp c slotT b 0 ([.k kd] ++ srcRegs f.ma f.ta 1 ++ srcRegs f.mb f.tb 1) [.k kd]
      (k.srcRanges f.ma f.ta 1 false ++ k.srcRanges f.mb f.tb 1 false) none (.floatMul kd xa xb f.fp)
    .ok (s.countLocal c false (64 * ((if f.ma then 1 else 0) + if f.mb then 1 else 0)))

/-- The eight tiles of a KIN (R147). -/
def State.kinTiles (s : State) (c : CoreAddr) (f : FTK) : List TileSrc :=
  let k := s.core c
  (List.range 8).map fun i =>
    if f.ml then
      let a := (k.getS (memReg f.src)).toNat + 4096 * i
      ⟨s.mem.localTileImg (s.physD c) (a / 4096), some a⟩
    else ⟨(k.getT (f.src.toNat + i)).img, none⟩

def slotKin (c : CoreAddr) (b : BitVec 16) (f : FTK) (s : State) : SlotRes :=
  let k := s.core c
  let kd := f.kd.toNat
  let tiles := s.kinTiles c f
  checked (k.srcCheck f.ml f.src 8) (k.getS (memReg f.src)) <|
  if tiles.any fun t => !t.regFmt fmtKS64 then .exc xcFormat 0
  else if !(k.getK kd).keystone then .exc xcMode 0
  else if tiles.any fun t => t.addr.isNone && t.img.tcr.anchor != (k.getK kd).anchor then .exc xcAnchor 0
  else
    let s := s.launchOp c slotT b 0 ([.k kd] ++ srcRegs f.ml f.src 8) [.k kd] (k.srcRanges f.ml f.src 8 false) none
      (.kin kd tiles)
    .ok (s.countLocal c false (if f.ml then 512 else 0))

/-- Registers of a TRD: what it reads, and the t registers it writes (R143, R144). -/
def trdRegs (f : FTR) : List RegName × List RegName :=
  let mx := match outFmt f.fmt with | some (.mx _) | some .mxHigh => true | _ => false
  let tensor := match outFmt f.fmt with
    | some (.plain .e4m3) | some (.plain .e5m2) | some (.plain .int8) => true | _ => false
  ([.k f.ks.toNat] ++ (if f.ml then [.s (memReg f.dst)] else []) ++ (if tensor then [.s f.strip.toNat] else []) ++
      (if f.rm = 2 then [.s f.sx.toNat, .s (f.sx.toNat + 1)] else []),
    (if f.ml then [] else (List.range (trdTiles f.fmt)).map fun i => .t (f.dst.toNat + i)) ++
      (if mx then [.t (f.strip.toNat / 8)] else []))

def slotTrd (c : CoreAddr) (b : BitVec 16) (f : FTR) (s : State) : SlotRes :=
  let k := s.core c
  let n := trdTiles f.fmt
  checked (k.srcCheck f.ml f.dst n) (k.getS (memReg f.dst)) <|
  if outFmt f.fmt = some .ks64 ∧ (k.getK f.ks.toNat).keystone = false then .exc xcMode 0
  else
    let a := (k.getS (memReg f.dst)).toNat
    let dest := if f.ml then BitVec.ofNat 64 ((localBase c + a) / 4096) else k.getS (f.sx.toNat + 1) >>> 12
    .ok (s.launchOp c slotT b f.q (trdRegs f).1 (trdRegs f).2 (k.srcRanges f.ml f.dst n true) none
      (.trd f a (k.getS f.sx.toNat) dest (scaleByte (k.getS f.strip.toNat) 0)))

/-! ## Completion of T operations (R89, R112, R113, R168) -/

/-- Logs what a check finds in tiles fetched from core-local memory (R227) and gives the worst class with its address. -/
def State.checkTiles (s : State) (c : CoreAddr) : List TileSrc → State × Class × Nat
  | [] => (s, .good, 0)
  | t :: r =>
    match t.addr with
    | none => s.checkTiles c r
    | some a =>
      let cl := classifyTile t.img
      let (s', w, b) := (s.flogLocal c cl t.img.tcr (a / 4096)).checkTiles c r
      match cl, w with
      | .good, _ => (s', w, b)
      | .torn, .corrupt _ => (s', w, b)
      | cl, _ => (s', cl, a)

/-- The status of a class (Table 4.19). -/
def classStatus : Class → BitVec 8
  | .torn => stTorn
  | .corrupt _ => stCorrupt
  | .good => stOk

/-- Removes an operation from flight. -/
def State.land (s : State) (c : CoreAddr) (id : Nat) : State :=
  s.modCore c fun k => { k with flights := k.flights.filter fun x => x.id != id }

/-- The checks of tiles fetched from memory, in the order of Table 4.19; `f` runs if they pass. -/
def State.fetched (s : State) (c : CoreAddr) (x : Flight) (tiles : List (TileSrc × BitVec 8)) (anchor : Option (BitVec 16))
    (f : State → State) : State :=
  let s := s.land c x.id
  let bad := fun (p : TileSrc → BitVec 8 → Bool) => tiles.find? fun t => t.1.addr.isSome && p t.1 t.2
  let fault := fun (s : State) code st (t : TileSrc) => s.deferred c slotT x.bundle code st (BitVec.ofNat 64 (t.addr.getD 0))
  match bad fun t fmt => t.img.tcr.fmt != fmt with
  | some t => fault s xcFormat stConfig t.1
  | none => match bad fun t _ => anchor.isSome && anchor != some t.img.tcr.anchor with
    | some t => fault s xcAnchor stConfig t.1
    | none =>
      let (s, cl, a) := s.checkTiles c (tiles.map Prod.fst)
      if cl = .good then f s else s.deferred c slotT x.bundle xcTile (classStatus cl) (BitVec.ofNat 64 a)

/-- Adds the contributions of a Keystone operation, and sets KSAT, INV and the launch's saturation record (R62, R63). -/
def State.addContribs (s : State) (c : CoreAddr) (kd : Nat) (d : Nat → Delta) (chunk : Nat) : State :=
  let k := s.core c
  let acc := k.getK kd
  let sat := anyDelta Delta.sat d || decide (2 ^ 40 < acc.count + chunk)
  let k := ((k.setK kd (acc.addAll d chunk)).flagIf sat Core.setKsat).flagIf (anyDelta Delta.inv d) Core.setInv
  let s := s.setCore c k
  match sat, k.launch with
  | true, some (r, i) => s.modLaunch r i fun l => { l with saturated := true }
  | _, _ => s

/-- What a TMMA adds to element v = 64 i + j. -/
def keyDelta (anchor : Int) (fa fb : BitVec 3) (a b : TileData) (sa sb : BitVec 2048) (ta tb : Byte) (half : Bool) :
    Nat → Delta :=
  fun v => keySum anchor (tmmaRow fa fb a sa ta half (v / 64)) (tmmaRow fb fa b sb tb half (v % 64))

/-- The effect of a T operation that reads tiles: TMMA (R59), TFMA (R74) or KIN (R147). -/
def State.completeT (s : State) (c : CoreAddr) (x : Flight) : State :=
  match x.kind with
  | .keyMul kd a b fa fb sa sb ta tb half =>
    s.fetched c x [(a, kfmtCode fa), (b, kfmtCode fb)] none fun s =>
      s.addContribs c kd (keyDelta ((s.core c).getK kd).anchorInt fa fb a.img.data b.img.data sa sb ta tb half) (tmmaK fa fb)
  | .floatMul kd a b fp =>
    let fm : EFmt := if fp then .fp32 else .bf16
    s.fetched c x [(a, formatCode fm false), (b, formatCode fm false)] none fun s =>
      s.modCore c fun k => k.setK kd ((k.getK kd).floatMul fm a.img.data b.img.data)
  | .kin kd tiles =>
    s.fetched c x (tiles.map fun t => (t, fmtKS64)) (some ((s.core c).getK kd).anchor) fun s =>
      s.addContribs c kd (fun v => ksDelta (ksBlockElem (tiles.map fun t => t.img.data) v)) 1
  | _ => s

/-! ## Read-out (R69 to R73, R92, R143 to R146) -/

/-- The exact value of an element for output, or none for an invalid one; float tiles convert from FP32 (R146). -/
def outValue (acc : Acc) (v : Nat) : Option Dy :=
  if acc.keystone then accValue acc.anchorInt (acc.elem v) else (f32 (floatValue (acc.elem v))).finite

/-- The elements of a row of an output tile. -/
def outPerRow (fmt : BitVec 4) : Nat :=
  match outFmt fmt with
  | some (.plain f) => elemsPerRow f
  | some (.mx f) => elemsPerRow f
  | some .mxHigh => 128
  | _ => 8

/-- The element format of an output. -/
def outElem (fmt : BitVec 4) : EFmt :=
  match outFmt fmt with
  | some (.plain f) => f
  | some (.mx f) => f
  | _ => .e2m1

/-- The value r of R71 for element v of a read-out. -/
def trdR (f : FTR) (seed dest : Word) (v : Nat) : Nat :=
  let per := 64 * outPerRow f.fmt
  srValue seed (dest + BitVec.ofNat 64 (v / per)) (v % per + (if f.fmt = 10 then 4096 else 0))

/-- Element v in a format without block scales: its code and whether OVF is set. -/
def trdPlain (acc : Acc) (f : FTR) (seed dest : Word) (scale : Byte) (v : Nat) : Nat × Bool :=
  let fm := outElem f.fmt
  let rm := trdRm f.rm
  let r := trdR f seed dest v
  let tensor := fm = .e4m3 ∨ fm = .e5m2 ∨ fm = .int8
  if fm = .fp32 ∧ acc.keystone = false then (floatValue (acc.elem v), false)
  else match (if tensor then e8m0 scale.toNat else some 0) with
    | none => (invalidCode fm, false)
    | some x =>
      if acc.keystone then
        let (c, o) := outPlain fm rm r ((outValue acc v).map fun d => d.scale (-x))
        (plusZero fm c, o)
      else cvtPlain fm rm r x (f32 (floatValue (acc.elem v)))

/-- The scale code of block `b` of an MX output: elements 32 b to 32 b + 31 (R73). -/
def trdScale (acc : Acc) (f : FTR) (b : Nat) : Nat :=
  mxScale (outElem f.fmt) ((List.range 32).map fun i => outValue acc (32 * b + i))

/-- Element v in an MX format. -/
def trdMx (acc : Acc) (f : FTR) (seed dest : Word) (v : Nat) : Nat × Bool :=
  let (c, o) := outMx (outElem f.fmt) (trdRm f.rm) (trdR f seed dest v) (trdScale acc f (v / 32)) (outValue acc v)
  (if acc.keystone then plusZero (outElem f.fmt) c else c, o)

/-- The codes of an output, element by element. -/
def trdCodes (acc : Acc) (f : FTR) (seed dest : Word) (scale : Byte) : List (Nat × Bool) :=
  (List.range 4096).map fun v => match outFmt f.fmt with
    | some .ks64 => ((ksCode (acc.elem v)).toNat, false)
    | some (.plain _) => trdPlain acc f seed dest scale v
    | _ => trdMx acc f seed dest v

/-- Rows from codes of `w` bits, `n` to a row of 64 bytes (bytes past the elements are zero, R47). -/
def codeRows (w n : Nat) (l : List Nat) (rows : Nat) : List Row :=
  (List.range rows).map fun r => BitVec.ofNat 512 (packNat w ((l.drop (n * r)).take n))

/-- The output rows, in order. -/
def trdRows (acc : Acc) (f : FTR) (seed dest : Word) (scale : Byte) : List Row :=
  let n := outPerRow f.fmt
  let w := match outFmt f.fmt with | some .ks64 => 64 | _ => (outElem f.fmt).bits
  codeRows w n ((trdCodes acc f seed dest scale).map Prod.fst) (4096 / n)

/-- Format code and anchor of the tiles that a read-out writes (R48, R83). -/
def trdFmt (f : FTR) : BitVec 8 :=
  match outFmt f.fmt with
  | some .ks64 => fmtKS64
  | some (.plain e) => formatCode e false
  | _ => formatCode (outElem f.fmt) true

def trdAnchor (acc : Acc) (f : FTR) : BitVec 16 := if outFmt f.fmt = some .ks64 then acc.anchor else noAnchor

/-- The scale strip of an MX output, 128 bytes in the low half of its slot; the bytes of the slot that it does not fill are
written as zero (R140, R144), also by an MXFP4 read-out of rows 32 to 63 (DEDUCED, log entry 21). -/
def trdStrip (acc : Acc) (f : FTR) (old : TileData) : TileData :=
  let slot := f.strip.toNat % 8
  let new : TileData := BitVec.ofNat 32768 (packNat 8 ((List.range 128).map fun b => trdScale acc f b))
  let mask : TileData := BitVec.ofNat 32768 ((2 ^ 2048 - 1) <<< (2048 * slot))
  (old &&& ~~~mask) ||| (new <<< (2048 * slot))

/-- The first row that a read-out writes, and whether it writes 32 rows only (Table 3.5). -/
def trdFirst (f : FTR) : Nat := if f.fmt = 10 then 32 else 0
def trdHalf (f : FTR) : Bool := f.fmt == 9 || f.fmt == 10

/-- Writes the tiles of a read-out to t registers. -/
def Core.trdToRegs (k : Core) (f : FTR) (rows : List Row) (anchor : BitVec 16) : Core :=
  (List.range (trdTiles f.fmt)).foldl (fun k j =>
    let n := f.dst.toNat + j
    let data := if trdHalf f then
        (List.range 32).foldl (fun d r => setRow d (trdFirst f + r) (rows.getD r 0)) (k.getT n).data
      else tileOfRows ((rows.drop (64 * j)).take 64)
    k.setT n ⟨data, trdFmt f, anchor⟩) k

/-- The 32-row read-out into core-local memory: a partial write that also sets FMT and ANCHOR (R111, R219). -/
def Mem.localHalf (m : Mem) (x slot first : Nat) (rows : List Row) (fmt : BitVec 8) : Mem :=
  let m := (List.range 32).foldl (fun m r => m.localPart x (slot * 4096 + 64 * (first + r)) 64 (rows.getD r 0).toNat) m
  m.setLocalRec x slot (summed { m.localRec x slot with fmt := fmt, anchor := noAnchor })

/-- Writes the tiles of a read-out to core-local memory. -/
def State.trdToLocal (s : State) (c : CoreAddr) (f : FTR) (dst : Nat) (rows : List Row) (anchor : BitVec 16) : State :=
  let x := s.physD c
  let m := if trdHalf f then s.mem.localHalf x (dst / 4096) (trdFirst f) rows (trdFmt f)
    else (List.range (trdTiles f.fmt)).foldl (fun m j =>
      m.localWhole x (dst / 4096 + j) (tileOfRows ((rows.drop (64 * j)).take 64)) (trdFmt f) anchor
        (s.ownerOf (s.core c).ctx)) s.mem
  ({ s with mem := m }).countLocal c true rows.length

/-- The effect of a read-out, and its signal (R101, R143 to R146, R546). -/
def State.completeTrd (s : State) (c : CoreAddr) (x : Flight) : State :=
  match x.kind with
  | .trd f dst seed dest scale =>
    let s := s.land c x.id
    let acc := (s.core c).getK f.ks.toNat
    let codes := trdCodes acc f seed dest scale
    let rows := trdRows acc f seed dest scale
    let fm := outElem f.fmt
    let isMx := match outFmt f.fmt with | some (.mx _) | some .mxHigh => true | _ => false
    let badScale := !isMx && (fm == .e4m3 || fm == .e5m2 || fm == .int8) && (e8m0 scale.toNat).isNone &&
      outFmt f.fmt != some .ks64
    let s := if f.ml then s.trdToLocal c f dst rows (trdAnchor acc f)
      else s.modCore c fun k => k.trdToRegs f rows (trdAnchor acc f)
    let s := if isMx then s.modCore c fun k =>
        let t := f.strip.toNat / 8
        k.setT t ⟨trdStrip acc f (k.getT t).data, fmtE8M0, noAnchor⟩
      else s
    let s := s.modCore c fun k => (k.flagIf (codes.any Prod.snd) Core.setOvf).flagIf badScale Core.setInv
    s.signalField c x.q x.slot x.bundle
  | _ => s

/-! ## V slot -/

def vectorOp (k : Core) : SlotOp → Core
  | .vfma f => k.vfma f | .vadd f => k.vadd f | .vsub f => k.vsub f | .vmul f => k.vmul f
  | .vmin f => k.vmin f | .vmax f => k.vmax f | .vcmp f => k.vcmp f
  | .viadd f => k.viadd f | .visub f => k.visub f | .vand f => k.vand f | .vor f => k.vor f | .vxor f => k.vxor f
  | .vshl f => k.vshl f | .vshr f => k.vshr f | .vsra f => k.vsra f
  | .vkaddw f => k.vkaddw f | .vknar f => k.vknar f | .vsel f => k.vsel f | .vbcst f => k.vbcst f
  | .vext f => k.vext f | .vperm f => k.vperm f | .vcvtTo f => k.vcvtTo f | .vcvtFrom f => k.vcvtFrom f
  | .vscan f => k.vscan f | .vsmr f => k.vsmr f | .vsmw f => k.vsmw f
  | _ => k

/-- A V operation; VCVT.FROM of KS64 checks its anchor (R150). -/
def slotV' (c : CoreAddr) (op : SlotOp) (s : State) : SlotRes :=
  let k := s.core c
  let bad : Bool := match op with
    | .vcvtFrom f => (outFmt f.fmt == some .ks64 || outFmt f.fmt == some .ks64bf16) && !anchorOk (k.cvtAnchor f)
    | _ => false
  if bad then .exc xcAnchor 0 else .ok (s.setCore c (vectorOp k op))

/-! ## L slots -/

/-- The slot number of an L port. -/
def lSlot (l1 : Bool) : BitVec 3 := if l1 then slotL1 else slotL0

/-- A checked load (R109, R112): the class of the rows read, or of the whole tile; `f` runs if it is GOOD. -/
def State.checkedLoad (s : State) (c : CoreAddr) (f : FLM) (b : BitVec 16) (a size : Nat) (g : State → State) : State :=
  let t := s.mem.localTileImg (s.physD c) (a / 4096)
  let lo := a % 4096 / 64
  let n := max 1 (size / 64)
  let cl := classify t.data t.tcr ((List.range n).map fun i => lo + i) (size == 4096)
  let s := (s.flogLocal c cl t.tcr (a / 4096)).countLocal c false n
  if cl = .good then g s else s.deferred c (lSlot f.l1) b xcTile (classStatus cl) (BitVec.ofNat 64 a)

/-- A load of layout LM. -/
def slotLoad (c : CoreAddr) (b : BitVec 16) (f : FLM) (size : Nat) (put : Core → Nat → Core) (s : State) : SlotRes :=
  let k := s.core c
  let a := k.lmAddr f size
  checked (k.localCheck a size size) a <|
    .ok (s.checkedLoad c f b a.toNat size fun s =>
      s.modCore c fun k => put k (s.mem.localNum (s.physD c) a.toNat size))

/-- A store of layout LM of fewer than 64 rows, or of a tile: `get` gives the bytes. -/
def slotStore (c : CoreAddr) (f : FLM) (size : Nat) (get : Core → Nat) (s : State) : SlotRes :=
  let k := s.core c
  let a := k.lmAddr f size
  if !k.enabled f.pred then .ok s
  else checked (k.localCheck a size size) a <|
    .ok (({ s with mem := s.mem.localPart (s.physD c) a.toNat size (get k) }).countLocal c true (max 1 (size / 64)))

/-- LD.S and LD.T are governed as a whole (R153). -/
def wholeLoad (c : CoreAddr) (f : FLM) (s : State) (r : SlotRes) : SlotRes :=
  if (s.core c).enabled f.pred then r else .ok s

def slotLdS (c : CoreAddr) (b : BitVec 16) (f : FLM) (s : State) : SlotRes :=
  wholeLoad c f s (slotLoad c b f 8 (fun k v => k.setS f.rd.toNat (BitVec.ofNat 64 v)) s)

def slotStS (c : CoreAddr) (_b : BitVec 16) (f : FLM) (s : State) : SlotRes :=
  slotStore c f 8 (fun k => (k.getS f.rd.toNat).toNat) s

/-- LD.R: row ROW, under bits 16 ROW to 16 ROW + 15 of the predicate. -/
def slotLdR (c : CoreAddr) (b : BitVec 16) (f : FLM) (s : State) : SlotRes :=
  slotLoad c b f 64 (fun k v =>
    let old := k.getV f.rd.toNat
    let p := k.getP f.pred.toNat
    let x : VReg := BitVec.ofNat 4096 (v <<< (512 * f.row.toNat))
    k.setV f.rd.toNat (vBuild old 32 (fun i => i / 16 == f.row.toNat && p.getLsbD i) (vElem x 32))) s

def slotStR (c : CoreAddr) (_b : BitVec 16) (f : FLM) (s : State) : SlotRes :=
  slotStore c f 64 (fun k => (vRow (k.getV f.rd.toNat) f.row.toNat).toNat) s

def slotLdV (c : CoreAddr) (b : BitVec 16) (f : FLM) (s : State) : SlotRes :=
  slotLoad c b f 512 (fun k v =>
    let p := k.getP f.pred.toNat
    k.setV f.rd.toNat (vBuild (k.getV f.rd.toNat) 32 (fun i => p.getLsbD i) (vElem (BitVec.ofNat 4096 v) 32))) s

def slotStV (c : CoreAddr) (_b : BitVec 16) (f : FLM) (s : State) : SlotRes :=
  slotStore c f 512 (fun k => (k.getV f.rd.toNat).toNat) s

/-- LD.T takes the tile with its format code and anchor (R83). -/
def slotLdT (c : CoreAddr) (b : BitVec 16) (f : FLM) (s : State) : SlotRes :=
  let k := s.core c
  let a := k.lmAddr f 4096
  wholeLoad c f s <| checked (k.localCheck a 4096 4096) a <|
    .ok (s.checkedLoad c f b a.toNat 4096 fun s =>
      let r := s.mem.localTileImg (s.physD c) (a.toNat / 4096)
      s.modCore c fun k => k.setT f.rd.toNat ⟨r.data, r.tcr.fmt, r.tcr.anchor⟩)

/-- ST.T writes a whole tile with a new record (R83, R218). -/
def slotStT (c : CoreAddr) (_b : BitVec 16) (f : FLM) (s : State) : SlotRes :=
  let k := s.core c
  let a := k.lmAddr f 4096
  let t := k.getT f.rd.toNat
  if !k.enabled f.pred then .ok s
  else checked (k.localCheck a 4096 4096) a <|
    .ok (({ s with mem := s.mem.localWhole (s.physD c) (a.toNat / 4096) t.data t.fmt t.anchor (s.ownerOf k.ctx) }).countLocal
      c true 64)

/-- A scalar operation: s[rd] = v if the predicate enables the slot. -/
def slotScalar (c : CoreAddr) (pred : BitVec 3) (rd : BitVec 5) (v : Core → Word) (s : State) : SlotRes :=
  let k := s.core c
  .ok (if k.enabled pred then s.setCore c (k.setS rd.toNat (v k)) else s)

/-- Layout LR. -/
def slotLR (c : CoreAddr) (f : FLR) (g : Word → Word → Word) (s : State) : SlotRes :=
  slotScalar c f.pred f.rd (fun k => g (k.getS f.ra.toNat) (k.getS f.rb.toNat)) s

/-- Layout LI. -/
def slotLI (c : CoreAddr) (f : FLI) (g : Word → BitVec 16 → Word) (s : State) : SlotRes :=
  slotScalar c f.pred f.rd (fun k => g (k.getS f.ra.toNat) f.imm) s

/-- The shift count of a scalar shift. -/
def shamt (x : Word) : Nat := x.toNat % 64

def slotScmp (c : CoreAddr) (f : FLC) (s : State) : SlotRes :=
  let k := s.core c
  let r := scmpCond f.cond (k.getS f.ra.toNat) (k.getS f.rb.toNat)
  .ok (if k.enabled f.pred then
    s.setCore c (k.setP f.pd.toNat (if r then BitVec.allOnes 128 else 0)) else s)

/-- The value of MOVI (Table 4.14, R154). -/
def moviValue (f : FLV) : Word :=
  match f.lit with
  | none => sext f.imm
  | some l => (l.setWidth 64 <<< 24) ||| (f.imm.setWidth 24).setWidth 64

def slotMovi (c : CoreAddr) (f : FLV) (s : State) : SlotRes := slotScalar c f.pred f.rd (fun _ => moviValue f) s

end Sys2Proof.Machine
end

