-- ==== Sys2Proof/Machine/Movers.lean ====
section
/-! DEFINITION. The M slot and the C slot (Fenyo instruction set, R155 to R165; R98 to R102, R189, R193, R284, R295,
R296). -/

namespace Sys2Proof.Machine

/-! ## Outbound operations (R189, R193) -/

/-- The next outbound operation of the span completed in the first run, and is not executed in a replay (R193). -/
def State.skips (s : State) (c : CoreAddr) : Bool :=
  let k := s.core c
  k.replaying && decide (k.outCount < 1024) && (s.store c).ledger.getLsbD k.outCount

/-- Numbers an outbound operation; from number 1,024 on the span is unreplayable (R189). -/
def Core.numbered (k : Core) : Core :=
  { k with outCount := k.outCount + 1, unreplayable := k.unreplayable || decide (1024 ≤ k.outCount) }

/-- Sets the ledger bit of a completed outbound operation (R189). -/
def State.ledgerDone (s : State) (c : CoreAddr) (out : Option Nat) : State :=
  match out with
  | some n => if n < 1024 then s.modStore c fun x => { x with ledger := x.ledger ||| (1#1024 <<< n) } else s
  | none => s

/-- Runs an outbound operation, or signals it as if it had completed where the replay skips it. -/
def outbound (c : CoreAddr) (slot : BitVec 3) (b : BitVec 16) (q : BitVec 5) (s : State) (f : State → State) : SlotRes :=
  if s.skips c then .ok ((s.modCore c Core.numbered).signalField c q slot b)
  else .ok (f s)

/-! ## Moves within the package -/

/-- The local range of a mover operation. -/
def moverRange (a : Word) (n : Nat) (write : Bool) : List LocalRange := [⟨a.toNat, a.toNat + 4096 * n, write⟩]

/-- Checks of a mover operation: every address 4 KiB aligned, then the local range (R153, R155). -/
def Core.moverCheck (k : Core) (loc : Option Word) (others : List Word) (n : Nat) : Option (BitVec 8) :=
  if (loc.toList ++ others).any fun a => a.toNat % 4096 != 0 then some xcAlign
  else match loc with
    | some a => if k.localOk a.toNat (4096 * n) then none else some xcAddress
    | none => none

/-- The address that a failing check reports: the misaligned one, or the local one. -/
def moverFaultAddr (loc : Option Word) (others : List Word) : Word :=
  match (loc.toList ++ others).find? fun a => a.toNat % 4096 != 0 with
  | some a => a
  | none => loc.getD 0

/-- Issues the writes of the tiles of a MOV.PUT. -/
def State.putTiles (s : State) (c : CoreAddr) (id : Nat) (sc : Nat) (addr : Word) :
    List (TileImg × Nat) → Nat → State
  | [], _ => s
  | (img, pa) :: r, i =>
    let who := Requester.mover (coreIdx c) id none (addr + BitVec.ofNat 64 (4096 * i))
    let s := if inScope sc c (placeOf pa) then s.tileWrite pa (coreIdx c) img who
      else s.earlyWrite pa (coreIdx c) img who
    s.putTiles c id sc addr r (i + 1)

/-- The tiles of a local range with their records. -/
def State.localTiles (s : State) (c : CoreAddr) (a : Word) (n : Nat) : List TileImg :=
  (List.range n).map fun i => s.mem.localTileImg (s.physD c) (a.toNat / 4096 + i)

def slotMovPut (c : CoreAddr) (b : BitVec 16) (f : FMP) (s : State) : SlotRes :=
  let k := s.core c
  let n := tileCount f.cnt
  let loc := k.getS f.ra.toNat
  let ca := k.getS f.rb.toNat
  if !k.enabled f.pred then .ok s
  else checked (k.moverCheck (some loc) [ca] n) (moverFaultAddr (some loc) [ca]) <|
    outbound c slotM b f.q s fun s =>
      match s.translateTiles (.core c) c.p k.ctx ca true n with
      | (s, .error a) => s.deferred c slotM b xcAddress stConfig a
      | (s, .ok pas) =>
        let id := (s.core c).nextId
        let s := s.launchOp c slotM b f.q [.s f.ra.toNat, .s f.rb.toNat] [] (moverRange loc n false) (some k.outCount)
          (.mover .put n f.sc)
        let s := (s.modCore c Core.numbered).countLocal c false (64 * n)
        s.putTiles c id f.sc.toNat ca ((s.localTiles c loc n).zip pas) 0

/-- Issues the reads of a MOV.FETCH. -/
def State.fetchTiles (s : State) (c : CoreAddr) (id ctx : Nat) (loc addr : Word) : List Nat → Nat → State
  | [], _ => s
  | pa :: r, i =>
    let who := Requester.mover (coreIdx c) id (some (loc.toNat + 4096 * i)) (addr + BitVec.ofNat 64 (4096 * i))
    (s.tileRead pa (coreIdx c) ctx fmtUntyped who).fetchTiles c id ctx loc addr r (i + 1)

def slotMovFetch (c : CoreAddr) (b : BitVec 16) (f : FMP) (s : State) : SlotRes :=
  let k := s.core c
  let n := tileCount f.cnt
  let loc := k.getS f.ra.toNat
  let ca := k.getS f.rb.toNat
  if !k.enabled f.pred then .ok s
  else checked (k.moverCheck (some loc) [ca] n) (moverFaultAddr (some loc) [ca]) <| .ok <|
    match s.translateTiles (.core c) c.p k.ctx ca false n with
    | (s, .error a) => s.deferred c slotM b xcAddress stConfig a
    | (s, .ok pas) =>
      let id := (s.core c).nextId
      (s.launchOp c slotM b f.q [.s f.ra.toNat, .s f.rb.toNat] [] (moverRange loc n true) none
        (.mover .fetch n f.sc)).fetchTiles c id k.ctx loc ca pas 0

/-- Issues the reads of a MOV.X, each of which writes its tile on. -/
def State.moveTiles (s : State) (c : CoreAddr) (id ctx sc : Nat) (src dst : Word) : List (Nat × Nat) → Nat → State
  | [], _ => s
  | (a, d) :: r, i =>
    let who := Requester.mover (coreIdx c) id none (src + BitVec.ofNat 64 (4096 * i))
    (s.tileRead a (coreIdx c) ctx fmtUntyped (.relay who d (!inScope sc c (placeOf d)))).moveTiles c id ctx sc src dst r
      (i + 1)

def slotMovX (c : CoreAddr) (b : BitVec 16) (f : FMP) (s : State) : SlotRes :=
  let k := s.core c
  let n := tileCount f.cnt
  let src := k.getS f.ra.toNat
  let dst := k.getS f.rb.toNat
  if !k.enabled f.pred then .ok s
  else checked (k.moverCheck none [src, dst] n) (moverFaultAddr none [src, dst]) <|
    outbound c slotM b f.q s fun s =>
      match s.translateTiles (.core c) c.p k.ctx src false n with
      | (s, .error a) => s.deferred c slotM b xcAddress stConfig a
      | (s, .ok as) => match s.translateTiles (.core c) c.p k.ctx dst true n with
        | (s, .error a) => s.deferred c slotM b xcAddress stConfig a
        | (s, .ok ds) =>
          let id := (s.core c).nextId
          ((s.launchOp c slotM b f.q [.s f.ra.toNat, .s f.rb.toNat] [] [] (some k.outCount) (.mover .x n f.sc)).modCore c
            Core.numbered).moveTiles c id k.ctx f.sc.toNat src dst (as.zip ds) 0

/-! ## Fabric operations -/

/-- A tile packet of a mover operation: SEQ is the operation's number and the tile's (R284). -/
def Core.tilePacket (k : Core) (typ : BitVec 4) (tc : BitVec 2) (pen : Bool) (addr : Word) (i : Nat) (gen : BitVec 16)
    (payload : Payload) : Packet :=
  { blankPacket with
    typ := typ, tc := tc, pen := pen, dstEp := faEp addr, offset := faOff addr + BitVec.ofNat 40 (4096 * i), rgen := gen
    seq := BitVec.ofNat 16 (k.sendCount % 256 * 256 + i % 256), payload := payload }

/-- Queues packets at the source router, one for each requester. -/
def State.issueAll (s : State) (c : CoreAddr) (l : List (Requester × Packet)) : State :=
  l.foldl (fun s e => s.issue (some (s.core c).ctxFin) (coreIdx c) e.1 e.2) s

/-- The notification of a SEND or MSEND: one pennant after its tiles (R158). -/
def Core.notePacket (k : Core) (tc : BitVec 2) (addr : Word) (rq : BitVec 5) (core : Word) (n : Nat) (gen : BitVec 16) :
    Packet :=
  { k.tilePacket ptNotify tc true addr 0 gen .none with
    offset := 0, rq := rq, core := field core 0 9, seq := BitVec.ofNat 16 (k.sendCount % 256 * 256 + (n - 1) % 256) }

/-- RQ names a counter of a core that does not exist (R158). -/
def noteBad (rq : BitVec 5) (core : Word) : Bool := qNamed rq && (unpackCore (field core 0 9)).isNone

/-- The requesters and packets of a SEND or MSEND; `f` completes a packet of the operation. -/
def State.sendPackets (s : State) (c : CoreAddr) (b : BitVec 16) (id n : Nat) (loc fa : Word) (tc : BitVec 2) (pen : Bool)
    (rq : BitVec 5) (core : Word) (f : Packet → Packet) : List (Requester × Packet) :=
  let k := s.core c
  let i := coreIdx c
  let tiles := (s.localTiles c loc n).zipIdx.map fun (img, j) =>
    (Requester.mover i id none (fa + BitVec.ofNat 64 (4096 * j)),
      f (k.tilePacket ptWriteTile tc pen fa j (s.gen i) (.tile img)))
  tiles ++ if qNamed rq then [(Requester.note i b fa, f (k.notePacket tc fa rq core n (s.gen i)))] else []

/-- Counts a SEND, GET or MSEND of the span (R284). -/
def Core.sent (k : Core) : Core := { k with sendCount := k.sendCount + 1 }

def slotSend (c : CoreAddr) (b : BitVec 16) (f : FMF) (s : State) : SlotRes :=
  let k := s.core c
  let n := tileCount f.cnt
  let loc := k.getS f.ra.toNat
  let fa := k.getS f.rb.toNat
  let core := k.getS (f.rb.toNat + 1)
  if !k.enabled f.pred then .ok s
  else checked (k.moverCheck (some loc) [fa] n) (moverFaultAddr (some loc) [fa]) <|
    if noteBad f.rq core then .exc xcAddress core
    else if s.skips c then .ok (((s.modCore c Core.numbered).modCore c Core.sent).signalField c f.q slotM b)
    else
      let pk := s.sendPackets c b k.nextId n loc fa f.tc f.pen f.rq core id
      let s := s.launchOp c slotM b f.q [.s f.ra.toNat, .s f.rb.toNat, .s (f.rb.toNat + 1)] [] (moverRange loc n false)
        (some k.outCount) (.mover .send n 4)
      .ok ((((s.issueAll c pk).modCore c Core.numbered).modCore c Core.sent).countLocal c false (64 * n))

def slotGet (c : CoreAddr) (b : BitVec 16) (f : FMF) (s : State) : SlotRes :=
  let k := s.core c
  let n := tileCount f.cnt
  let loc := k.getS f.ra.toNat
  let fa := k.getS f.rb.toNat
  let i := coreIdx c
  if !k.enabled f.pred then .ok s
  else checked (k.moverCheck (some loc) [fa] n) (moverFaultAddr (some loc) [fa]) <|
    let pk := (List.range n).map fun j =>
      (Requester.mover i k.nextId (some (loc.toNat + 4096 * j)) (fa + BitVec.ofNat 64 (4096 * j)),
        k.tilePacket ptReadTile f.tc f.pen fa j (s.gen i) .none)
    let s := s.launchOp c slotM b f.q [.s f.ra.toNat, .s f.rb.toNat] [] (moverRange loc n true) none (.mover .get n 4)
    .ok ((s.issueAll c pk).modCore c Core.sent)

/-- The source entry of a context in the active bank; none where its source endpoint has no ID (R278). -/
def State.srcEntry (s : State) (ctx : Nat) (bank : Bool) (die : Nat) : Option (BitVec 19 × Word) :=
  match s.srcLep ctx with
  | none => none
  | some n => (s.lepId bank n).map fun id => (id, s.ept die bank id.toNat)

/-- A multicast is refused as a whole (R295, R296): its base entry fails R279, two members are one package, or a
row/column mask has a bit above 16. -/
def State.mcastBad (s : State) (ctx : Nat) (tc : BitVec 2) (base : BitVec 19) (rowcol : Bool) (mask : Word) : Bool :=
  let die := epDie base
  let dst := s.ept die s.bank base.toNat
  match s.srcEntry ctx s.bank die with
  | none => true
  | some (_, src) =>
    !entriesOk src dst tc || (rowcol && decide (2 ^ 17 ≤ mask.toNat)) ||
      !distinctCoords (mcastMembers s.extents (coordOf (eCoord dst)) rowcol mask)

def slotMsend (c : CoreAddr) (b : BitVec 16) (f : FMC) (s : State) : SlotRes :=
  let k := s.core c
  let n := tileCount f.cnt
  let loc := k.getS f.ra.toNat
  let fa := k.getS f.rb.toNat
  let mask := k.getS (f.rb.toNat + 1)
  let core := k.getS (f.rb.toNat + 2)
  if !k.enabled f.pred then .ok s
  else checked (k.moverCheck (some loc) [fa] n) (moverFaultAddr (some loc) [fa]) <|
    if noteBad f.rq core then .exc xcAddress core
    else if s.skips c then .ok (((s.modCore c Core.numbered).modCore c Core.sent).signalField c f.q slotM b)
    else if s.mcastBad k.ctx f.tc (faEp fa) f.mode mask then
      .ok ((s.modCore c Core.sent).deferred c slotM b xcAddress stConfig fa)
    else
      let mc := fun (p : Packet) => { p with mc := true, mask := mask, coll := if f.mode then 1 else 0 }
      let pk := s.sendPackets c b k.nextId n loc fa f.tc false f.rq core mc
      let none' := (mcastMembers s.extents (coordOf (eCoord (s.ept (epDie (faEp fa)) s.bank (faEp fa).toNat))) f.mode
        mask).isEmpty
      let s := s.launchOp c slotM b f.q [.s f.ra.toNat, .s f.rb.toNat, .s (f.rb.toNat + 1), .s (f.rb.toNat + 2)] []
        (moverRange loc n false) (some k.outCount) (.mover .msend (if none' then 0 else n) 4)
      .ok ((((s.issueAll c (if none' then [] else pk)).modCore c Core.numbered).modCore c Core.sent).countLocal c false
        (64 * n))

/-! ## C slot -/

/-- WAIT (R99): the bundle waits until the counter holds N, and N is taken in the arbitration that admits it. -/
def slotWait (c : CoreAddr) (_b : BitVec 16) (f : FCW) (s : State) : SlotRes :=
  let k := s.core c
  if !k.enabled f.pred then .ok s
  else if (k.getQ f.q.toNat).toNat < f.n.toNat then .hold
  else .ok (s.setCore c (k.setQ f.q.toNat (k.getQ f.q.toNat - f.n.setWidth 16)))

def slotSignal (c : CoreAddr) (b : BitVec 16) (f : FCW) (s : State) : SlotRes :=
  if (s.core c).enabled f.pred then .ok (s.signalQ c f.q.toNat f.n.toNat slotC b) else .ok s

/-- BR: the next bundle is TARGET (R127). -/
def slotBr (c : CoreAddr) (_b : BitVec 16) (f : FCB) (s : State) : SlotRes :=
  let k := s.core c
  .ok (if k.enabled f.pred then s.setCore c { k with pc := f.target } else s)

def slotBdec (c : CoreAddr) (_b : BitVec 16) (f : FCB) (s : State) : SlotRes :=
  let k := s.core c
  if !k.enabled f.pred then .ok s
  else
    let k := k.setS f.ra.toNat (k.getS f.ra.toNat - 1)
    .ok (s.setCore c (if k.getS f.ra.toNat = 0 then k else { k with pc := f.target }))

/-- SPAN.BAR issues when every earlier operation has completed (R115, R165). -/
def slotSpanBar (c : CoreAddr) (_b : BitVec 16) (f : FCB) (s : State) : SlotRes :=
  if !(s.core c).flights.isEmpty then .hold else .ok (s.enterBarrier c f.target f.stop)

/-- The hardware anchor of R56. -/
def Core.hwAnchor (k : Core) (fa fb : BitVec 3) : Int :=
  ((k.sma.toNat % 256 : Nat) : Int) - 127 + (((k.smb.toNat % 256 : Nat) : Int) - 127) + (kfmt fa).1.bound + (kfmt fb).1.bound

/-- The cleared accumulator (R52). -/
def Acc.cleared (keystone : Bool) (anchor : BitVec 16) : Acc := ⟨keystone, if keystone then anchor else noAnchor, 0, []⟩

/-- The scale-maximum registers allow a hardware anchor: none has seen a NaN scale, both have seen a scale (R57, R161). -/
def Core.hwAnchorOk (k : Core) : Bool :=
  !k.sma.getLsbD 9 && !k.smb.getLsbD 9 && k.sma.getLsbD 8 && k.smb.getLsbD 8

def slotKclr (c : CoreAddr) (_b : BitVec 16) (f : FCK) (s : State) : SlotRes :=
  let k := s.core c
  if !k.enabled f.pred then .ok s
  else if f.mode && f.hw && !k.hwAnchorOk then .exc xcAnchor 0
  else
    let anchor := if f.hw then BitVec.ofInt 16 (k.hwAnchor f.fa f.fb) else f.anch.signExtend 16
    .ok (s.setCore c ((List.range 8).foldl (fun k n =>
      if f.kmask.getLsbD n then k.setK n (Acc.cleared f.mode anchor) else k) k))

def slotRdftc (c : CoreAddr) (_b : BitVec 16) (f : FCS) (s : State) : SlotRes :=
  slotScalar c f.pred f.rd (fun _ => s.ftc) s

def slotRdq (c : CoreAddr) (_b : BitVec 16) (f : FCS) (s : State) : SlotRes :=
  slotScalar c f.pred f.rd (fun k => (k.getQ f.q.toNat).setWidth 64) s

/-- LDVOL and LDACQ (R163, R164, R254): the read is sent, and its value comes by LOAD_RETURN. -/
def slotLoad8 (c : CoreAddr) (b : BitVec 16) (f : FCA) (acq : Bool) (s : State) : SlotRes :=
  let k := s.core c
  let addr := k.getS f.ra.toNat
  let i := coreIdx c
  if !k.enabled f.pred then .ok s
  else if addr.toNat % 8 ≠ 0 then .exc xcAlign addr
  else
    let fly := fun (s : State) =>
      s.launchOp c slotC b 0 [.s f.ra.toNat] [.s f.rd.toNat] [] none (.load f.rd.toNat addr acq none)
    if f.f then .ok ((fly s).issue (some k.ctxFin) i (.load i k.nextId) (k.packet8 ptRead8 addr 0 (s.gen i)))
    else
      let t := s.translate c.p k.ctx addr false
      match t.pa with
      | .error _ => .ok (t.s.deferred c slotC b xcAddress stConfig addr)
      | .ok pa =>
        if t.s.admits (.core c) (placeOf pa) then .ok ((fly t.s).word8Read pa i (.load i k.nextId))
        else .ok ((t.s.xlateErr c.p xReserved k.ctx pa).deferred c slotC b xcAddress stConfig addr)

def slotLdvol (c : CoreAddr) (b : BitVec 16) (f : FCA) (s : State) : SlotRes := slotLoad8 c b f false s

def slotLdacq (c : CoreAddr) (b : BitVec 16) (f : FCA) (s : State) : SlotRes := slotLoad8 c b f true s

/-- STREL (R162, R164): it is in flight at once; its write is sent when everything before it is visible at its scope. -/
def slotStrel (c : CoreAddr) (b : BitVec 16) (f : FCA) (s : State) : SlotRes :=
  let k := s.core c
  let addr := k.getS f.ra.toNat
  if !k.enabled f.pred then .ok s
  else if addr.toNat % 8 ≠ 0 then .exc xcAlign addr
  else outbound c slotC b f.q s fun s =>
    ((s.launchOp c slotC b f.q [.s f.ra.toNat, .s f.rd.toNat] [] [] (some k.outCount)
      (.strel addr f.f f.sc (k.getS f.rd.toNat) false false)).modCore c Core.numbered).pump c

end Sys2Proof.Machine
end

