-- ==== Sys2Proof/Machine/Issue.lean ====
section
/-! DEFINITION. The front end of a core: issue, hazards and range tracking, exceptions at issue, and the completion of
operations in flight (The Fenyo tensor core, R94 to R108, R114 to R116; Fenyo instruction set, R127 to R135, R167, R168). -/

namespace Sys2Proof.Machine

/-! ## One slot -/

/-- A T operation: nothing where its predicate is off. -/
def wholeSlot (c : CoreAddr) (pred : BitVec 3) (s : State) (r : SlotRes) : SlotRes :=
  if (s.core c).enabled pred then r else .ok s

/-- What the operation of a slot does at issue. -/
def slotOp (c : CoreAddr) (b : BitVec 16) (op : SlotOp) (s : State) : SlotRes :=
  match op with
  | .tmma f => wholeSlot c f.pred s (slotTmma c b f s)
  | .tfma f => wholeSlot c f.pred s (slotTfma c b f s)
  | .trd f => wholeSlot c f.pred s (slotTrd c b f s)
  | .kin f => wholeSlot c f.pred s (slotKin c b f s)
  | .ldS f => slotLdS c b f s
  | .stS f => slotStS c b f s
  | .ldR f => slotLdR c b f s
  | .stR f => slotStR c b f s
  | .ldV f => slotLdV c b f s
  | .stV f => slotStV c b f s
  | .ldT f => slotLdT c b f s
  | .stT f => slotStT c b f s
  | .add f => slotLR c f (· + ·) s
  | .sub f => slotLR c f (· - ·) s
  | .and f => slotLR c f (· &&& ·) s
  | .or f => slotLR c f (· ||| ·) s
  | .xor f => slotLR c f (· ^^^ ·) s
  | .shl f => slotLR c f (fun a x => a <<< shamt x) s
  | .shr f => slotLR c f (fun a x => a >>> shamt x) s
  | .sra f => slotLR c f (fun a x => a.sshiftRight (shamt x)) s
  | .mul f => slotLR c f (· * ·) s
  | .addi f => slotLI c f (fun a i => a + sext i) s
  | .andi f => slotLI c f (fun a i => a &&& sext i) s
  | .shli f => slotLI c f (fun a i => a <<< (i.toNat % 64)) s
  | .shri f => slotLI c f (fun a i => a >>> (i.toNat % 64)) s
  | .scmp f => slotScmp c f s
  | .movi f => slotMovi c f s
  | .movPut f => slotMovPut c b f s
  | .movFetch f => slotMovFetch c b f s
  | .movX f => slotMovX c b f s
  | .send f => slotSend c b f s
  | .get f => slotGet c b f s
  | .msend f => slotMsend c b f s
  | .wait f => slotWait c b f s
  | .signal f => slotSignal c b f s
  | .br f => slotBr c b f s
  | .bdec f => slotBdec c b f s
  | .spanBar f => slotSpanBar c b f s
  | .kclr f => slotKclr c b f s
  | .rdftc f => slotRdftc c b f s
  | .rdq f => slotRdq c b f s
  | .ldvol f => slotLdvol c b f s
  | .ldacq f => slotLdacq c b f s
  | .strel f => slotStrel c b f s
  | op => slotV' c op s

/-! ## Registers and ranges that an operation names (R94, R96). Token counters are not tracked: increments commute and a
WAIT waits for its threshold (R98 to R100). -/

def vrRegs (f : FVR) : List RegName := [.p f.pred.toNat, .v f.va.toNat, .v f.vb.toNat, .v f.vc.toNat]

def vxScale (f : FVX) : RegName :=
  match outFmt f.fmt with
  | some (.mx _) => .v f.vs.toNat
  | _ => .s f.vs.toNat

/-- The registers that an operation reads, and those that it writes. -/
def opRegs : SlotOp → List RegName × List RegName
  | .tmma f => ([.p f.pred.toNat, .k f.kd.toNat, if mxCode f.fa then .t (f.scl.toNat / 8) else .s (f.scl.toNat / 4)] ++
      srcRegs f.ma f.ta 1 ++ srcRegs f.mb f.tb 1, [.k f.kd.toNat])
  | .tfma f => ([.p f.pred.toNat, .k f.kd.toNat] ++ srcRegs f.ma f.ta 1 ++ srcRegs f.mb f.tb 1, [.k f.kd.toNat])
  | .trd f => (.p f.pred.toNat :: (trdRegs f).1, (trdRegs f).2)
  | .kin f => ([.p f.pred.toNat, .k f.kd.toNat] ++ srcRegs f.ml f.src 8, [.k f.kd.toNat])
  | .vfma f | .vadd f | .vsub f | .vmul f | .vmin f | .vmax f | .viadd f | .visub f | .vand f | .vor f | .vxor f
  | .vshl f | .vshr f | .vsra f | .vperm f => (vrRegs f, [.v f.vd.toNat])
  | .vcmp f => ([.p f.pred.toNat, .v f.va.toNat, .v f.vb.toNat], [.p (f.vd.toNat % 8)])
  | .vkaddw f => ([.p f.pred.toNat, .v f.va.toNat, .v (f.va.toNat + 1), .v f.vb.toNat], [.v f.vd.toNat, .v (f.vd.toNat + 1)])
  | .vknar f => ([.p f.pred.toNat, .v f.va.toNat, .v (f.va.toNat + 1)], [.v f.vd.toNat])
  | .vsel f => ([.p f.pred.toNat, .p (f.vc.toNat % 8), .v f.va.toNat, .v f.vb.toNat], [.v f.vd.toNat])
  | .vbcst f => ([.p f.pred.toNat, .s (f.va.toNat % 32)], [.v f.vd.toNat])
  | .vext f => ([.p f.pred.toNat, .v f.va.toNat, .s (f.vb.toNat % 32)], [.s (f.vd.toNat % 32)])
  | .vcvtTo f => ([.p f.pred.toNat, .v f.va.toNat, vxScale f, .s f.sx.toNat, .s (f.sx.toNat + 1)],
      [.v f.vd.toNat] ++ (match outFmt f.fmt with | some (.mx _) => [.v f.vs.toNat] | _ => []))
  | .vcvtFrom f => ([.p f.pred.toNat, .v f.va.toNat, vxScale f, .s f.sx.toNat, .s (f.sx.toNat + 1)], [.v f.vd.toNat])
  | .vscan f => ([.p f.pred.toNat, .v f.va.toNat], [if f.sm then .smb else .sma])
  | .vsmr f => ([.p f.pred.toNat, if f.sm then .smb else .sma], [.s f.rs.toNat])
  | .vsmw f => ([.p f.pred.toNat, .s f.rs.toNat], [if f.sm then .smb else .sma])
  | .ldS f => ([.p f.pred.toNat, .s f.rb.toNat], [.s f.rd.toNat])
  | .stS f => ([.p f.pred.toNat, .s f.rb.toNat, .s f.rd.toNat], [])
  | .ldR f | .ldV f => ([.p f.pred.toNat, .s f.rb.toNat], [.v f.rd.toNat])
  | .stR f | .stV f => ([.p f.pred.toNat, .s f.rb.toNat, .v f.rd.toNat], [])
  | .ldT f => ([.p f.pred.toNat, .s f.rb.toNat], [.t f.rd.toNat])
  | .stT f => ([.p f.pred.toNat, .s f.rb.toNat, .t f.rd.toNat], [])
  | .add f | .sub f | .and f | .or f | .xor f | .shl f | .shr f | .sra f | .mul f =>
    ([.p f.pred.toNat, .s f.ra.toNat, .s f.rb.toNat], [.s f.rd.toNat])
  | .addi f | .andi f | .shli f | .shri f => ([.p f.pred.toNat, .s f.ra.toNat], [.s f.rd.toNat])
  | .scmp f => ([.p f.pred.toNat, .s f.ra.toNat, .s f.rb.toNat], [.p f.pd.toNat])
  | .movi f => ([.p f.pred.toNat], [.s f.rd.toNat])
  | .movPut f | .movFetch f | .movX f => ([.p f.pred.toNat, .s f.ra.toNat, .s f.rb.toNat], [])
  | .send f | .get f => ([.p f.pred.toNat, .s f.ra.toNat, .s f.rb.toNat, .s (f.rb.toNat + 1)], [])
  | .msend f => ([.p f.pred.toNat, .s f.ra.toNat, .s f.rb.toNat, .s (f.rb.toNat + 1), .s (f.rb.toNat + 2)], [])
  | .wait f | .signal f => ([.p f.pred.toNat], [])
  | .br f | .spanBar f => ([.p f.pred.toNat], [])
  | .bdec f => ([.p f.pred.toNat, .s f.ra.toNat], [.s f.ra.toNat])
  | .kclr f => ([.p f.pred.toNat] ++ (if f.hw then [.sma, .smb] else []),
      (List.range 8).filterMap fun n => if f.kmask.getLsbD n then some (.k n) else none)
  | .rdftc f | .rdq f => ([.p f.pred.toNat], [.s f.rd.toNat])
  | .ldvol f | .ldacq f => ([.p f.pred.toNat, .s f.ra.toNat], [.s f.rd.toNat])
  | .strel f => ([.p f.pred.toNat, .s f.ra.toNat, .s f.rd.toNat], [])

/-- The core-local ranges that an operation touches; each takes one entry of the range tracker. -/
def Core.opRanges (k : Core) : SlotOp → List LocalRange
  | .tmma f => k.srcRanges f.ma f.ta 1 false ++ k.srcRanges f.mb f.tb 1 false
  | .tfma f => k.srcRanges f.ma f.ta 1 false ++ k.srcRanges f.mb f.tb 1 false
  | .trd f => k.srcRanges f.ml f.dst (trdTiles f.fmt) true
  | .kin f => k.srcRanges f.ml f.src 8 false
  | .ldS f => let a := (k.lmAddr f 8).toNat; [⟨a, a + 8, false⟩]
  | .stS f => let a := (k.lmAddr f 8).toNat; [⟨a, a + 8, true⟩]
  | .ldR f => let a := (k.lmAddr f 64).toNat; [⟨a, a + 64, false⟩]
  | .stR f => let a := (k.lmAddr f 64).toNat; [⟨a, a + 64, true⟩]
  | .ldV f => let a := (k.lmAddr f 512).toNat; [⟨a, a + 512, false⟩]
  | .stV f => let a := (k.lmAddr f 512).toNat; [⟨a, a + 512, true⟩]
  | .ldT f => let a := (k.lmAddr f 4096).toNat; [⟨a, a + 4096, false⟩]
  | .stT f => let a := (k.lmAddr f 4096).toNat; [⟨a, a + 4096, true⟩]
  | .movPut f => moverRange (k.getS f.ra.toNat) (tileCount f.cnt) false
  | .movFetch f => moverRange (k.getS f.ra.toNat) (tileCount f.cnt) true
  | .send f => moverRange (k.getS f.ra.toNat) (tileCount f.cnt) false
  | .get f => moverRange (k.getS f.ra.toNat) (tileCount f.cnt) true
  | .msend f => moverRange (k.getS f.ra.toNat) (tileCount f.cnt) false
  | _ => []

/-- Two ranges touch a common 64-byte row, one of them writing (R96). -/
def rangesClash (x y : LocalRange) : Bool :=
  (x.write || y.write) && decide (x.lo / 64 < (y.hi + 63) / 64) && decide (y.lo / 64 < (x.hi + 63) / 64)

/-- Two register lists share a name. -/
def shareReg (a b : List RegName) : Bool := a.any fun r => b.contains r

/-- An operation conflicts with one in flight (R94). -/
def Flight.clashes (x : Flight) (r w : List RegName) (ranges : List LocalRange) : Bool :=
  shareReg x.writes r || shareReg x.writes w || shareReg x.reads w ||
    x.ranges.any fun a => ranges.any fun b => rangesClash a b

/-- The unit that a slot feeds; a T operation feeds the pipe of its accumulator (R81). -/
def opPipe : SlotOp → Option Nat
  | .tmma f => some (f.kd.toNat / 2)
  | .tfma f => some (f.kd.toNat / 2)
  | .kin f => some (f.kd.toNat / 2)
  | .trd f => some (f.ks.toNat / 2)
  | _ => none

/-- The pipe on which an operation in flight runs. -/
def Flight.pipe (x : Flight) : Option Nat :=
  match x.kind with
  | .keyMul kd _ _ _ _ _ _ _ _ _ => some (kd / 2)
  | .floatMul kd _ _ _ => some (kd / 2)
  | .kin kd _ => some (kd / 2)
  | .trd f _ _ _ _ => some (f.ks.toNat / 2)
  | _ => none

/-- Operations of the same unit's queue (R103; an operation keeps its place until it completes). -/
def Core.queued (k : Core) (op : SlotOp) : Nat :=
  match opPipe op with
  | some p => (k.flights.filter fun x => x.pipe == some p).length
  | none => match op with
    | .movPut _ | .movFetch _ | .movX _ | .send _ | .get _ | .msend _ => (k.flights.filter fun x => x.slot == slotM).length
    | .ldvol _ | .ldacq _ | .strel _ => (k.flights.filter fun x => x.slot == slotC).length
    | _ => 0

/-- Range-tracker entries in use. -/
def Core.entries (k : Core) : Nat := (k.flights.map fun x => x.ranges.length).foldl (· + ·) 0

/-! ## Issue of a list of slots -/

/-- The state of an issue: the slots so far, the first exception, whether the bundle waits, the entries it needs. -/
structure Issuing where
  s : State
  exc : Option (BitVec 3 × BitVec 8 × Word)
  hold : Bool
  need : Nat
deriving DecidableEq, Repr

/-- PRED of an operation. -/
def opPred : SlotOp → BitVec 3
  | .tmma f => f.pred | .tfma f => f.pred | .trd f => f.pred | .kin f => f.pred
  | .vfma f | .vadd f | .vsub f | .vmul f | .vmin f | .vmax f | .vcmp f | .viadd f | .visub f | .vand f | .vor f | .vxor f
  | .vshl f | .vshr f | .vsra f | .vkaddw f | .vknar f | .vsel f | .vbcst f | .vext f | .vperm f => f.pred
  | .vcvtTo f | .vcvtFrom f => f.pred
  | .vscan f => f.pred | .vsmr f => f.pred | .vsmw f => f.pred
  | .ldS f | .stS f | .ldR f | .stR f | .ldV f | .stV f | .ldT f | .stT f => f.pred
  | .add f | .sub f | .and f | .or f | .xor f | .shl f | .shr f | .sra f | .mul f => f.pred
  | .addi f | .andi f | .shli f | .shri f => f.pred
  | .scmp f => f.pred | .movi f => f.pred
  | .movPut f | .movFetch f | .movX f => f.pred
  | .send f | .get f => f.pred
  | .msend f => f.pred
  | .wait f | .signal f => f.pred
  | .br f | .bdec f | .spanBar f => f.pred
  | .kclr f => f.pred
  | .rdftc f | .rdq f => f.pred
  | .ldvol f | .ldacq f | .strel f => f.pred

/-- An operation whose predicate governs elements, so that it executes whatever bit 0 is (R123, R552). -/
def elementwise : SlotOp → Bool
  | .vfma _ | .vadd _ | .vsub _ | .vmul _ | .vmin _ | .vmax _ | .vcmp _ | .viadd _ | .visub _ | .vand _ | .vor _ | .vxor _
  | .vshl _ | .vshr _ | .vsra _ | .vkaddw _ | .vknar _ | .vsel _ | .vbcst _ | .vperm _ | .vcvtTo _ | .vcvtFrom _
  | .ldR _ | .ldV _ => true
  | _ => false

/-- Completes at issue the T operation of the bundle's own T slot, where a later slot of the bundle depends on it (R95). -/
def State.settleOwn (s : State) (c : CoreAddr) (first : Nat) (r w : List RegName) (ranges : List LocalRange) : State :=
  match (s.core c).flights.find? fun x => decide (first ≤ x.id) && x.pipe.isSome && x.clashes r w ranges with
  | some x => match x.kind with
    | .trd _ _ _ _ _ => s.completeTrd c x
    | _ => s.completeT c x
  | none => s

/-- One slot of an issue; `first` is the number of the bundle's first operation. -/
def Issuing.slot (c : CoreAddr) (b : BitVec 16) (first : Nat) (i : Issuing) (e : BitVec 3 × SlotOp) : Issuing :=
  let k := i.s.core c
  if !elementwise e.2 && !k.enabled (opPred e.2) then i
  else
    let (r, w) := opRegs e.2
    let ranges := k.opRanges e.2
    let old := k.flights.filter fun x => decide (x.id < first)
    let need := i.need + ranges.length
    if (old.any fun x => x.clashes r w ranges) || decide (8 ≤ k.queued e.2) ||
        decide (64 < (old.map fun x => x.ranges.length).foldl (· + ·) 0 + need) then { i with hold := true }
    else match slotOp c b e.2 (i.s.settleOwn c first r w ranges) with
      | .ok s => { i with s := s, need := need }
      | .exc code a => { i with exc := match i.exc with | some x => some x | none => some (e.1, code, a) }
      | .hold => { i with hold := true }

/-- The slots of a bundle, in program order (R95). -/
def State.issueSlots (s : State) (c : CoreAddr) (b : BitVec 16) (ops : List (BitVec 3 × SlotOp)) : Issuing :=
  ops.foldl (Issuing.slot c b (s.core c).nextId) ⟨s, none, false, 0⟩

/-- The front end may issue: the core runs, no exception is pending, and no LDACQ awaits its value (R163, R168). -/
def Core.mayIssue (k : Core) : Bool :=
  k.st == .run && k.pend.isNone && !(k.flights.any fun x => match x.kind with | .load _ _ acq _ => acq | _ => false)

/-- A VSMW whose operand is in flight, or makes the bundle illegal (R152). -/
def vsmwState (k : Core) (ops : List (BitVec 3 × SlotOp)) : Option Bool :=
  match ops.find? fun e => match e.2 with | .vsmw _ => true | _ => false with
  | some (_, .vsmw f) =>
    if k.flights.any fun x => x.writes.contains (.s f.rs.toNat) then some true
    else if k.vsmwOk f then none else some false
  | _ => none

/-- Gives the core the state of a bundle that issued. -/
def State.issued (s : State) (c : CoreAddr) : State := s.modCore c fun k => { k with waitBeats := 0, fill := false }

/-- Issues a list of slots as one bundle at index `b`: it waits, or takes the first exception at issue, or issues whole
(R103, R167). -/
def State.issueAs (s : State) (c : CoreAddr) (b : BitVec 16) (ops : List (BitVec 3 × SlotOp)) (start : State → State) :
    State :=
  match vsmwState (s.core c) ops with
  | some true => s
  | some false => s.precise c slotV xcIllegal 0
  | none =>
    let i := (start s).issueSlots c b ops
    if i.hold then s
    else match i.exc with
      | some (slot, code, a) => s.precise c slot code a
      | none => i.s.issued c

/-! ## Beats (R105) -/

/-- The limiter passes a beat. -/
def Core.beatOpen (k : Core) : Bool := k.limInForce == 0 || decide (k.limBeats < k.limInForce.toNat)

/-- One beat is counted: BEATCNT holds while the core is STOPPED, FAULT or FENCED (Table 3.14). -/
def Core.beat (k : Core) : Core :=
  if k.st = .run ∨ k.st = .barrier then { k with beatCnt := k.beatCnt + 1, limBeats := k.limBeats + 1 } else k

/-- The bundle at an index (R119). -/
def State.fetch (s : State) (c : CoreAddr) (i : BitVec 16) : BitVec 256 :=
  BitVec.ofNat 256 (s.mem.localNum (s.physD c) ((s.core c).codeLo + 32 * i.toNat) 32)

/-- The WAIT of a bundle is unmet at this beat (R196). -/
def Core.waitHeld (k : Core) (ops : List (BitVec 3 × SlotOp)) : Bool :=
  ops.any fun e => match e.2 with
    | .wait f => k.enabled f.pred && decide ((k.getQ f.q.toNat).toNat < f.n.toNat)
    | _ => false

/-- One beat of a core in RUN, BARRIER or another state (R103, R127 to R134, R167). -/
def State.bundleIssue (s : State) (c : CoreAddr) : State :=
  let k := s.core c
  if !k.beatOpen then s
  else
    let s := s.setCore c k.beat
    if !k.mayIssue then s
    else if k.bundles ≤ k.pc.toNat then s.precise c slotHeader xcCodeBound (k.pc.setWidth 64)
    else match decodeBundle (s.fetch c k.pc) with
      | none => s.precise c slotHeader xcIllegal 0
      | some bu =>
        if bu.span != k.atEntry ∧ vsmwState k bu.ops = none then s.precise c slotHeader xcSpanMark 0
        else
          let s := if k.waitHeld bu.ops then s.modCore c fun k => { k with waitBeats := k.waitBeats + 1 } else s
          s.issueAs c k.pc bu.ops fun s => s.modCore c fun k => { k with pc := k.pc + 1, atEntry := false }

/-- BUNDLE_ISSUE. -/
def execBundleIssue (c : CoreAddr) (s : State) : Answer := .next (s.bundleIssue c)

/-- The operation of one slot, as a bundle that holds it alone: an illegal one is refused before anything else (R131). It
neither takes a beat nor advances PC; only BR, BDEC and SPAN.BAR change what issues next. -/
def State.runSlot (s : State) (c : CoreAddr) (slot : BitVec 3) (op : SlotOp) : State :=
  let k := s.core c
  if !k.mayIssue then s
  else if !opLegal op then s.precise c slotHeader xcIllegal 0
  else s.issueAs c k.pc [(slot, op)] id

/-! ## Completion of operations in flight -/

/-- The oldest T operation of a pipe, read-outs apart. -/
def Core.oldestT (k : Core) (p : Nat) : Option Flight :=
  k.flights.find? fun x => x.pipe == some p && match x.kind with | .trd _ _ _ _ _ => false | _ => true

def Core.oldestTrd (k : Core) (p : Nat) : Option Flight :=
  k.flights.find? fun x => x.pipe == some p && match x.kind with | .trd _ _ _ _ _ => true | _ => false

/-- What follows every completion: a release that stood behind it may leave, and a launch may be done. -/
def State.afterOp (s : State) (c : CoreAddr) : State := (s.pump c).settle

/-- T_OP_COMPLETE. -/
def execTOpComplete (c : CoreAddr) (pipe : Fin 4) (s : State) : Answer :=
  .next (match (s.core c).oldestT pipe.val with
    | some x => (s.completeT c x).afterOp c
    | none => s)

/-- READOUT_COMPLETE. -/
def execReadoutComplete (c : CoreAddr) (pipe : Fin 4) (s : State) : Answer :=
  .next (match (s.core c).oldestTrd pipe.val with
    | some x => (s.completeTrd c x).afterOp c
    | none => s)

/-- An operation whose every part is done leaves flight: its ledger bit is set and its counter signalled, unless a part of
it was refused (R101, R156, R162, R168, R189). -/
def State.finishOp (s : State) (c : CoreAddr) (x : Flight) : State :=
  let s := s.land c x.id
  let s := if x.failed then s else (s.ledgerDone c x.outIdx).signalField c x.q x.slot x.bundle
  s.afterOp c

/-- MOVER_COMPLETE. -/
def execMoverComplete (c : CoreAddr) (id : Nat) (s : State) : Answer :=
  .next (match (s.core c).flights.find? fun x => x.id == id with
    | some x => match x.kind with
      | .mover _ 0 _ => s.finishOp c x
      | _ => s
    | none => s)

/-- STREL_VISIBLE. -/
def execStrelVisible (c : CoreAddr) (id : Nat) (s : State) : Answer :=
  .next (match (s.core c).flights.find? fun x => x.id == id with
    | some x => match x.kind with
      | .strel _ _ _ _ _ true => s.finishOp c x
      | _ => s
    | none => s)

/-- The oldest load whose value has arrived. -/
def Core.loadReady (k : Core) : Option Flight :=
  k.flights.find? fun x => match x.kind with | .load _ _ _ (some _) => true | _ => false

/-- LOAD_RETURN. -/
def execLoadReturn (c : CoreAddr) (s : State) : Answer :=
  .next (match (s.core c).loadReady with
    | some x => match x.kind with
      | .load rd _ _ (some v) =>
        ((if x.failed then s else s.modCore c fun k => k.setS rd v).land c x.id).afterOp c
      | _ => s
    | none => s)

/-- CORE_FAULT_ENTRY: the operations issued have run to completion (R168). -/
def execCoreFaultEntry (c : CoreAddr) (s : State) : Answer :=
  let k := s.core c
  .next (if k.st == .run && k.pend.isSome && k.flights.isEmpty then s.enterFault c else s)

/-! ## Intervals -/

/-- BEAT_LIMIT_INTERVAL: each 1,000 ticks a new interval starts, and a changed LIMIT takes effect (R105). -/
def execBeatLimitInterval (c : CoreAddr) (s : State) : Answer :=
  let k := s.core c
  .next (if 1000 ≤ (s.ftc - k.limAt).toNat then
    s.setCore c { k with limBeats := 0, limInForce := field k.beatLim 0 12, limAt := s.ftc } else s)

/-- The measurement of R108 at the end of an interval. -/
def Core.measured (k : Core) : Core :=
  let n := (k.beatCnt - k.measBase).toNat
  let k := { k with rated := true, rate := setField k.rate 0 12 (Nat.min (n / 10) 4095) }
  if n < fieldN k.floor 0 12 * 10 then { k.setBelowFloor with rate := bumpHold k.rate 32 16 } else k

/-- FLOOR_MEASURE: every 10,000 ticks (R108). -/
def execFloorMeasure (c : CoreAddr) (s : State) : Answer :=
  let k := s.core c
  let live := k.st == .run || k.st == .barrier
  .next (if 10000 ≤ (s.ftc - k.measAt).toNat then
    let k := if live && k.measOk then k.measured else k
    s.setCore c { k with measBase := k.beatCnt, measAt := s.ftc, measOk := live }
    else s)

/-- A pipe has no queued T operation. -/
def Core.idlePipes (k : Core) : Bool := k.flights.all fun x => x.pipe.isNone

/-- LOAD_FILL_START: in RUN after 256 beats of a held WAIT (R196). -/
def execLoadFillStart (c : CoreAddr) (s : State) : Answer :=
  let k := s.core c
  .next (if (k.st == .barrier || (k.st == .run && decide (256 ≤ k.waitBeats))) && k.idlePipes then
    s.setCore c { k with fill := true } else s)

end Sys2Proof.Machine
end

