-- ==== Sys2Proof/Machine/Image.lean ====
section
/-! DEFINITION. What the control complex reads by context address, the loading of code (R172, R192, R199), and the replay
of a span on a spare (R192 to R195). The control complex reads and writes what it needs in one step (DESIGN CHOICE, log
entry 23). -/

namespace Sys2Proof.Machine

/-! ## Reading by context address -/

/-- The bytes at a physical place: host memory gives free values (log entry 8); none where nothing answers. -/
def State.placeBytes (s : State) (pa n : Nat) : Option (List Byte) :=
  match placeOf pa with
  | .hbm _ _ | .reservoir _ | .cluster _ _ => some (s.mem.bytes pa n)
  | .host port off => if s.pcieUp port then some ((List.range n).map fun i => Config.hostByte s.freeCtr (off + i)) else none
  | _ => none

/-- Bytes of the tiles at a list of physical addresses; LINK_LOSS where a host window does not answer (R362). -/
def State.tilesBytes (s : State) : List Nat → Except (BitVec 8) (List Byte)
  | [] => .ok []
  | pa :: r => match s.placeBytes pa 4096 with
    | none => .error stLinkLoss
    | some b => match s.tilesBytes r with
      | .ok l => .ok (b ++ l)
      | .error e => .error e

/-- `n` bytes at a context address, as the control complex reads them for a command (R211, R548): the state the
translations leave, and the bytes or the status with which the command ends. -/
def State.ctxBytes (s : State) (p : Fin 4) (ctx ca n : Nat) : State × Except (BitVec 8) (List Byte) :=
  if 2 ^ 48 < ca + n then (s.xlateErr p xNotMapped ctx (ca % 2 ^ 48), .error stConfig)
  else
    let first := ca / 4096 * 4096
    let k := (ca % 4096 + n + 4095) / 4096
    match s.translateTiles .engine p ctx (BitVec.ofNat 64 first) false k with
    | (s, .error _) => (s, .error stConfig)
    | (s, .ok pas) => match s.tilesBytes pas with
      | .error e => (s, .error e)
      | .ok b => (s.draw, .ok ((b.drop (ca % 4096)).take n))

/-! ## Code regions -/

/-- The bundle is a literal-form MOVI (R154, R173). -/
def isLiteralMovi (w : BitVec 256) : Bool :=
  decide ((w >>> 6).setWidth 2 = (1 : BitVec 2)) && w.getLsbD 2 && decide (sOp ((w >>> 56).setWidth 40) = 0x30)

/-- The bundle with an endpoint ID in the EP field of the value that its MOVI builds (R154, R199): EP is value bits
[58:40], and value bits [63:24] are the L1 slot. -/
def bindEp (w : BitVec 256) (ep : Nat) : BitVec 256 :=
  let lo := 16 + 40 * 3 + (40 - 24)
  (w &&& ~~~(BitVec.ofNat 256 (0x7FFFF <<< lo))) ||| BitVec.ofNat 256 ((ep % 0x80000) <<< lo)

/-- A code blob, as a number, with the relocations of its core-table entry applied. -/
def boundBlob (blob : Nat) (relocs : List RelocEnt) (entry : Nat) : Nat :=
  relocs.foldl (fun b r =>
    if r.core = entry then
      let w := BitVec.ofNat 256 (b >>> (256 * r.bundle))
      b - (w.toNat <<< (256 * r.bundle)) + ((bindEp w r.ep).toNat <<< (256 * r.bundle))
    else b) blob

/-- Writes a blob of `n` tiles into the local memory of a core from byte `lo` on; the tiles are untyped (log entry 24). -/
def State.writeCode (s : State) (c : CoreAddr) (ctx lo n blob : Nat) : State :=
  (List.range n).foldl (fun s i =>
    let data := BitVec.ofNat 32768 (blob >>> (32768 * i))
    { s with mem := s.mem.localWhole (s.physD c) (lo / 4096 + i) data fmtUntyped noAnchor (s.ownerOf ctx) }) s

/-- The core-table entry of a core of this package, with its index. -/
def Launch.entryOf (l : Launch) (c : CoreAddr) : Option (Nat × CoreEnt) :=
  findIdx (fun e => e.pkg == l.me && e.core == c) l.cores

/-- The value of CORE_CODE of a core-table entry (Table 3.16). -/
def CoreEnt.codeWord (e : CoreEnt) : Word := setField (setField 0 8 8 e.size) 0 5 e.base

/-- Reads the code blob of a core-table entry and writes it into the core's code region, with its relocations. -/
def State.loadCode (s : State) (l : Launch) (c : CoreAddr) (i : Nat) (e : CoreEnt) : State × Option (BitVec 8) :=
  match s.ctxBytes l.part l.ctx.val (l.image + e.code) (e.size * 0x10000) with
  | (s, .error st) => (s, some st)
  | (s, .ok b) =>
    let s := s.modCore c fun k => { k with code := e.codeWord }
    (s.writeCode c l.ctx.val (e.base * 0x10000) (e.size * 16) (boundBlob (leNat b) l.relocs i), none)

/-! ## Replay -/

/-- s, p and q of a core from a record, each counter with its tally, held at 65,535 (R192 step 3). -/
def Core.fromRecord (k : Core) (r : SpanRec) (tally : Map (BitVec 16)) : Core :=
  (List.range 16).foldl
    (fun k n => k.setQ n (BitVec.ofNat 16 (Nat.min
      ((mget (fun _ => 0) r.q n).toNat + (mget (fun _ => 0) tally n).toNat) 0xFFFF)))
    { k with s := r.s, p := r.p, q := r.q }

/-- Barrier `n` of a group has been released: every arrival is held and the FTC has reached S + D (R175). -/
def State.released (s : State) (slot n : Nat) : Bool :=
  let g := s.group slot
  decide (n < g.full) && decide (g.start n + s.fld (rSgSlip slot) 0 48 ≤ s.ftc.toNat)

/-- Enters the spare from a record: the span that the record enters, or the barrier before it (R192 step 4). -/
def State.enterSpare (s : State) (c : CoreAddr) (r : SpanRec) : State :=
  let k := (s.core c).fromRecord r (s.store c).tally
  let n := r.span.toNat
  let k := { k with failFence := false, next := r.next }
  let nspans := (s.group k.group).spans.length
  if s.released k.group n then
    if n = nspans then ((s.setCore c { k with st := .stopped }).replayEnds k.group).settle
    else
      s.setCore c { k.enterSpan with
        st := .run, atLaunch := false, pc := r.next, spanIdx := n, span := BitVec.ofNat 16 n, replaying := true
        limitUsed := k.limitUsed && n == k.spanIdx }
  else
    (s.setCore c { k with
      st := .barrier, atLaunch := n == 0, spanIdx := n - 1, span := BitVec.ofNat 16 (n - 1), stop := n == nspans }).replayEnds
      k.group

/-- The replay of R192 of a core that awaits it; a launch whose image no longer reads ends with FENCED (R195). -/
def State.replay (s : State) (c : CoreAddr) : State :=
  let k := s.core c
  if !(k.st == .stopped && k.failFence) then s
  else match s.launchOf c, (s.store c).newest with
  | some l, some r => match l.entryOf c with
    | some (i, e) => match s.loadCode l c i e with
      | (s, none) => s.enterSpare c r
      | (s, some _) => (s.endLaunch l stFenced).settle
    | none => (s.endLaunch l stFenced).settle
  | _, _ => s

/-- SPARE_REPLAY. -/
def execSpareReplay (c : CoreAddr) (s : State) : Answer := .next (s.replay c)

/-- CORE_HW_ERROR: an uncorrectable error fences the core for failure (R453). -/
def execCoreHwError (c : CoreAddr) (s : State) : Answer := .next (s.failCore c)

end Sys2Proof.Machine
end

