-- ==== Sys2Proof/Machine/CollVal.lean ====
section
/-! DEFINITION. The values of a collective and its schedule: partials in WIDE and F32P form, narrowing at the far axis, groups,
ranks, and the ring schedule (Collective operations, R318 to R322, R333 to R337). -/

namespace Sys2Proof.Machine

/-! ## WIDE elements (R319) -/

def collInv : BitVec 80 := 0x80000000000000000000#80
def collSat : BitVec 80 := 0x80000000000000000001#80

/-- An exact sum; INV wins over SAT (R151, R319). -/
def collAdd (a b : BitVec 80) : BitVec 80 :=
  if a = collInv ∨ b = collInv then collInv
  else if a = collSat ∨ b = collSat then collSat
  else a + b

/-- A KS64 code as a WIDE element. -/
def wideOfKs (m : Word) : BitVec 80 :=
  if m = ksInv then collInv else if m = ksSatPos ∨ m = ksSatNeg then collSat else m.signExtend 80

/-- The KS64 code of a WIDE element, and whether it is a SAT code (R66). -/
def ksOfWide (w : BitVec 80) : Word × Bool :=
  if w = collInv then (ksInv, false)
  else if w = collSat ∨ 2 ^ 63 - 2 < w.toInt.natAbs then (if 0 < w.toInt then ksSatPos else ksSatNeg, true)
  else (w.setWidth 64, false)

/-- A WIDE element rounded once to FP32 or BF16 with RNE, and whether it is an invalid result because of SAT (R69, R72,
R336, R337). -/
def narrowWide (f : EFmt) (anchor : BitVec 16) (w : BitVec 80) : Nat × Bool :=
  if w = collInv then (invalidCode f, false)
  else if w = collSat then (invalidCode f, true)
  else (plusZero f (roundTo f .rne 0 ⟨decide (w.toInt < 0), w.toInt.natAbs, anchor.toInt - 40⟩).1, false)

/-! ## F32P elements: binary32 in bits [31:0] -/

def f32pAdd (a b : BitVec 80) : BitVec 80 := BitVec.ofNat 80 (fadd (a.toNat % 2 ^ 32) (b.toNat % 2 ^ 32))

/-- A binary32 value rounded to FP32 or BF16 with RNE; a NaN is the invalid marker of Table 2.7. -/
def narrowF32 (f : EFmt) (a : Nat) : Nat := (packVal f .rne (f32 (a % 2 ^ 32))).getD (invalidCode f)

/-- A code of FP32 or BF16 as an F32P element. -/
def f32pOf (f : EFmt) (c : Nat) : BitVec 80 := BitVec.ofNat 80 (if f = .bf16 then c * 65536 else c)

/-! ## Formats of a collective (Table 9.1, Table 9.2) -/

/-- What a collective moves: KS64, or elements of FP32 or BF16. -/
inductive CollFmt where
  | ks
  | el (f : EFmt)
deriving DecidableEq, Repr

def collFmt (c : Nat) : Option CollFmt :=
  if c = 0x20 then some .ks else if c = 5 then some (.el .fp32) else if c = 4 then some (.el .bf16) else none

/-- Elements of a tile. -/
def CollFmt.perTile : CollFmt → Nat
  | .ks => 512
  | .el .bf16 => 2048
  | .el _ => 1024

/-- The output format: FAR 0 FP32, 1 BF16, 2 KS64. -/
def farFmt (far : Nat) : CollFmt := if far = 0 then .el .fp32 else if far = 1 then .el .bf16 else .ks

/-- The combinations of Table 9.1. -/
def redFormats (inp : CollFmt) (far : Nat) : Bool :=
  match inp with
  | .ks => decide (far ≤ 2)
  | .el .fp32 => decide (far ≤ 1)
  | .el _ => far == 1

/-! ## Fields of the descriptor (Table 9.2) -/

/-- `n` bytes of a descriptor from byte `o`. -/
def dsc (d : BitVec 1024) (o n : Nat) : Nat := bitsAt d (8 * o) (8 * n)

def Coll.op (c : Coll) : Nat := dsc c.desc 0x14 1
def Coll.inFmt (c : Coll) : Nat := dsc c.desc 0x15 1
def Coll.far (c : Coll) : Nat := dsc c.desc 0x16 1
def Coll.pmask (c : Coll) : Nat := dsc c.desc 0x17 1 / 16
def Coll.pipe (c : Coll) : Bool := dsc c.desc 0x17 1 % 2 == 1
def Coll.units (c : Coll) : Nat := dsc c.desc 0x20 4
def Coll.itemRows (c : Coll) : Nat := dsc c.desc 0x24 1
def Coll.cap (c : Coll) : Nat := dsc c.desc 0x28 4
def Coll.epn (c : Coll) : Nat := dsc c.desc 0x30 1
def Coll.items (c : Coll) : Nat := dsc c.desc 0x34 4
def Coll.src (c : Coll) : Nat := dsc c.desc 0x38 8
def Coll.dst (c : Coll) : Nat := dsc c.desc 0x40 8
def Coll.pstride (c : Coll) : Nat := dsc c.desc 0x48 8
def Coll.peers (c : Coll) : Nat := dsc c.desc 0x50 8
def Coll.idxAt (c : Coll) : Nat := dsc c.desc 0x58 8
def Coll.cntAt (c : Coll) : Nat := dsc c.desc 0x60 8
def Coll.anchor (c : Coll) : BitVec 16 := BitVec.ofNat 16 (dsc c.desc 0x1E 2)

/-- Extent of the group on an axis: 0 X, 1 Y, 2 Z. -/
def Coll.ext (c : Coll) (a : Nat) : Nat := dsc c.desc (0x18 + a) 1

/-- Position of this package on an axis. -/
def Coll.pos (c : Coll) (a : Nat) : Nat := if a = 0 then c.px else if a = 1 then c.py else c.pz

def opAllReduce : Nat := 0
def opReduceScatter : Nat := 1
def opAllGather : Nat := 2
def opDispatch : Nat := 3

def Coll.reduces (c : Coll) : Bool := c.op == opAllReduce || c.op == opReduceScatter

/-- Partition p is a member. -/
def Coll.has (c : Coll) (p : Nat) : Bool := c.pmask / 2 ^ p % 2 == 1

def Coll.present (c : Coll) : List (Fin 4) := allParts.filter fun p => c.has p.val

/-- Packages of the group, and the rank of a position (R322). -/
def Coll.size (c : Coll) : Nat := c.ext 0 * c.ext 1 * c.ext 2

def Coll.rankAt (c : Coll) (x y z : Nat) : Nat := x + c.ext 0 * (y + c.ext 1 * z)

def Coll.rank (c : Coll) : Nat := c.rankAt c.px c.py c.pz

/-- Members of the group: partitions of every package. -/
def Coll.members (c : Coll) : Nat := 4 * c.size

/-- The rank of the peer on axis `a`, on the + side or the − side. -/
def Coll.peer (c : Coll) (a : Nat) (minus : Bool) : Nat :=
  let n := c.ext a
  let v := if minus then (c.pos a + n - 1) % n else (c.pos a + 1) % n
  c.rankAt (if a = 0 then v else c.px) (if a = 1 then v else c.py) (if a = 2 then v else c.pz)

/-- The input and output formats of a reducing collective; `m` chunks in a unit, and source tiles of a unit (Table 9.1). -/
def Coll.input (c : Coll) : CollFmt := (collFmt c.inFmt).getD .ks

def Coll.output (c : Coll) : CollFmt := farFmt c.far

def Coll.m (c : Coll) : Nat := if c.reduces then c.output.perTile / 512 else 1

def Coll.srcTiles (c : Coll) : Nat := if c.reduces then c.output.perTile / c.input.perTile else 1

/-- Format code and anchor of the result tiles (R338). -/
def Coll.outCode (c : Coll) : BitVec 8 :=
  if c.reduces then (match c.output with | .ks => fmtKS64 | .el f => formatCode f false) else BitVec.ofNat 8 c.inFmt

def Coll.outAnchor (c : Coll) : BitVec 16 := if c.outCode = fmtKS64 then c.anchor else noAnchor

/-! ## The ring schedule (R320, R333) -/

/-- Axes with rings. -/
def Coll.levels (c : Coll) : List Nat := [0, 1, 2].filter fun a => decide (1 < c.ext a)

/-- The first ring level above `l`; `none` for below all. -/
def Coll.nextLevel (c : Coll) (l : Option Nat) : Option Nat :=
  c.levels.find? fun a => match l with | none => true | some l => decide (l < a)

/-- Units of quad q. -/
def Coll.listLen (c : Coll) (q : Nat) : Nat := (c.units + 3 - q) / 4

/-- Bound `i` of the `n` segments of a range. -/
def segAt (lo hi n i : Nat) : Nat := lo + i * (hi - lo) / n

/-- The range of a quad's list that a level divides: what this package owns of the levels below it. -/
def Coll.range (c : Coll) (q lvl : Nat) : Nat × Nat :=
  (c.levels.filter fun a => decide (a < lvl)).foldl
    (fun (r : Nat × Nat) a => (segAt r.1 r.2 (c.ext a) (c.pos a), segAt r.1 r.2 (c.ext a) (c.pos a + 1))) (0, c.listLen q)

/-- The list positions of segment `i` of a level. -/
def Coll.seg (c : Coll) (q lvl i : Nat) : Nat × Nat :=
  let r := c.range q lvl
  (segAt r.1 r.2 (c.ext lvl) i, segAt r.1 r.2 (c.ext lvl) (i + 1))

/-- What this package owns after every level. -/
def Coll.owned (c : Coll) (q : Nat) : Nat × Nat := c.range q 3

/-- The segment that is sent in step `s`: (r − s − 1) mod n in direction +, (r + s + 1) mod n in direction −; in the
all-gather one less is taken away. -/
def Coll.sendSeg (c : Coll) (q lvl : Nat) (ag : Bool) (stp : Nat) : Nat :=
  let n := c.ext lvl
  let k := (stp + if ag then 0 else 1) % n
  if q % 2 = 0 then (c.pos lvl + n - k) % n else (c.pos lvl + k) % n

/-- The segment that is received in step `s`. -/
def Coll.recvSeg (c : Coll) (q lvl : Nat) (ag : Bool) (stp : Nat) : Nat := c.sendSeg q lvl ag (stp + 1)

/-- Quad and list position of a chunk. -/
def Coll.quad (c : Coll) (idx : Nat) : Nat := idx / c.m % 4
def Coll.listPos (c : Coll) (idx : Nat) : Nat := idx / c.m / 4

/-- The chunk lies in a segment. -/
def Coll.inSeg (c : Coll) (q lvl i idx : Nat) : Bool :=
  let r := c.seg q lvl i
  decide (r.1 ≤ c.listPos idx ∧ c.listPos idx < r.2)

/-- The chunks of list positions lo to hi of a quad: all of each unit, or (`units`) the first of each. -/
def Coll.chunksOf (c : Coll) (q : Nat) (r : Nat × Nat) (units : Bool) : List Nat :=
  (List.range (r.2 - r.1)).flatMap fun k =>
    let u := 4 * (r.1 + k) + q
    if units then [u * c.m] else (List.range c.m).map fun j => u * c.m + j

/-- The partial travels in WIDE form at a level (Table 9.1). -/
def Coll.wide (c : Coll) (lvl : Nat) : Bool := c.input == .ks && (decide (lvl < 2) || c.far == 2)

/-- P + L (R335). -/
def Coll.combine (c : Coll) (lvl : Nat) (p l : List (BitVec 80)) : List (BitVec 80) :=
  List.zipWith (if c.wide lvl then collAdd else f32pAdd) p l

/-- The far point: rounding to FAR, and whether a SAT partial became an invalid result (R336, R337). -/
def Coll.farPoint (c : Coll) (v : List (BitVec 80)) : List (BitVec 80) × Bool :=
  match c.output with
  | .ks => (v, false)
  | .el f => match c.input with
    | .ks =>
      let l := v.map (narrowWide f c.anchor)
      (l.map fun e => f32pOf f e.1, l.any Prod.snd)
    | .el _ => (v.map fun e => f32pOf f (narrowF32 f e.toNat), false)

/-- The end of the Z reduce-scatter: an F32P sum is rounded to FAR (R336). -/
def Coll.endZ (c : Coll) (v : List (BitVec 80)) : List (BitVec 80) :=
  match c.output with
  | .ks => v
  | .el f => v.map fun e => f32pOf f (narrowF32 f e.toNat)

/-- The output tile of the chunks of a unit, and whether it holds a SAT code (R336, R337). -/
def Coll.outTile (c : Coll) (v : List (BitVec 80)) : TileData × Bool :=
  match c.output with
  | .ks =>
    let l := v.map ksOfWide
    (BitVec.ofNat 32768 (packNat 64 (l.map fun e => e.1.toNat)), l.any Prod.snd)
  | .el f =>
    (BitVec.ofNat 32768 (packNat f.bits (v.map fun e => if f = .bf16 then e.toNat % 2 ^ 32 / 65536 else e.toNat % 2 ^ 32)), false)

/-- The 512 elements of a source tile that a chunk takes, as partials. -/
def Coll.elems (c : Coll) (t : TileData) (first : Nat) : List (BitVec 80) :=
  (List.range 512).map fun i => match c.input with
    | .ks => wideOfKs (BitVec.ofNat 64 (bitsAt t (64 * (first + i)) 64))
    | .el f => f32pOf f (bitsAt t (f.bits * (first + i)) f.bits)

/-- The in-package level: an exact sum, or the tree of R334 over the present partitions. -/
def Coll.packageSum (c : Coll) (l : List (Option (List (BitVec 80)))) : List (BitVec 80) :=
  let two := fun (a b : Option (List (BitVec 80))) => match a, b with
    | some x, some y => some (if c.input = .ks then List.zipWith collAdd x y else List.zipWith f32pAdd x y)
    | some x, none => some x
    | none, y => y
  match l with
  | [a, b, d, e] => (two (two a b) (two d e)).getD []
  | _ => []

/-! ## Packets between engines (R341, Table 9.3) -/

def ckData : Nat := 1
def ckHeld : Nat := 2
def ckGo : Nat := 3
def ckYield : Nat := 4
def ckYieldOk : Nat := 5
def ckGoSent : Nat := 6
def ckEnd : Nat := 7
def ckCredit : Nat := 8
def ckFin : Nat := 9

/-- KIND, LEVEL, PHASE, STEP, PART, DIR, SPART and DPART of a COLL field. -/
def cfKind (f : BitVec 24) : Nat := f.toNat % 16
def cfLevel (f : BitVec 24) : Nat := f.toNat / 16 % 4
def cfPhase (f : BitVec 24) : Bool := f.getLsbD 6
def cfStep (f : BitVec 24) : Nat := f.toNat / 128 % 128
def cfPart (f : BitVec 24) : Nat := f.toNat / 0x4000 % 2
def cfDir (f : BitVec 24) : Nat := f.toNat / 0x8000 % 2
def cfSpart (f : BitVec 24) : Nat := f.toNat / 0x10000 % 4
def cfDpart (f : BitVec 24) : Nat := f.toNat / 0x40000 % 4

def collField (kind lvl : Nat) (ag : Bool) (stp half dir spart dpart : Nat) : BitVec 24 :=
  BitVec.ofNat 24 (kind + lvl * 16 + boolN ag 6 + stp * 128 + half * 0x4000 + dir * 0x8000 + spart * 0x10000 + dpart * 0x40000)

/-- LEVEL of a packet that belongs to no level. -/
def lvlNone : Nat := 3

/-- The bytes of a payload, for its CRC (Table 9.4). -/
def payloadBytes : Payload → List Byte
  | .none => []
  | .tile t => bytesOf 32768 t.data 4096 ++ recBytes t.tcr
  | .wide d => bytesOf 20480 d 2560
  | .f32p d => bytesOf 16384 d 2048
  | .rows l => l.flatMap fun r => bytesOf 512 r 64

/-- COLL_ID of a packet. -/
def collIdOf (p : Packet) : BitVec 32 := (p.data8 >>> 32).setWidth 32

/-- The group digest (R328): w0 to w3 are the words of the group part. -/
def groupDigest (d : BitVec 1024) : BitVec 32 :=
  let w := fun o => BitVec.ofNat 64 (dsc d o 8)
  (mix (w 0x28 ^^^ mix (w 0x20 ^^^ mix (w 0x18 ^^^ mix (w 0x10))))).setWidth 32

end Sys2Proof.Machine
end

