-- ==== Sys2Proof/Machine/Coll.lean ====
section
/-! DEFINITION. What the Collective Engines do with a collective that they have accepted: their reads, their packets, the ring
schedule with its slots and credits, dispatch, and the end (Collective operations, R323, R330, R334 to R355). An engine reads
a source and acts on what has come in one step (DESIGN CHOICE, log entry 35). -/

namespace Sys2Proof.Machine

/-- A result, or a status and the CAUSE of COL_ERR (Table 9.10). -/
abbrev Res (α : Type) := State × Except (BitVec 8 × Nat) α

def ccTile : Nat := 1
def ccCrc : Nat := 3
def ccEnd : Nat := 4
def ccWait : Nat := 5
def ccDesc : Nat := 6
def ccQuota : Nat := 7
def ccLicence : Nat := 8
def ccFence : Nat := 9

/-! ## The collectives of the package -/

def State.findColl (s : State) (r : Nat) (i : BitVec 32) : Option Coll := s.colls.find? fun c => c.ring == r && c.idx == i

def State.modColl (s : State) (r : Nat) (i : BitVec 32) (f : Coll → Coll) : State :=
  { s with colls := updWhere (fun c => c.ring == r && c.idx == i) f s.colls }

/-- A counter of COL_EVT (Table 9.11) by its low bit. -/
def State.collEvt (s : State) (die lo : Nat) : State := s.bump (rColEvt (dieOf die)) lo 16

def ceDup : Nat := 48
def ceResend : Nat := 32
def ceYield : Nat := 16
def ceLate : Nat := 0

/-! ## Packets -/

/-- The endpoint ID of a package of the group (R323). -/
def State.peerEp (s : State) (c : Coll) (rank : Nat) : State × Option (BitVec 19) :=
  match s.ctxBytes c.part c.ctx.val (c.peers + 4 * rank) 4 with
  | (s, .ok b) => (s, some (BitVec.ofNat 19 (leNat b)))
  | (s, .error _) => (s, none)

/-- A COLL packet of a collective. -/
def State.collPacket (s : State) (c : Coll) (field : BitVec 24) (lo : Nat) : Packet :=
  { blankPacket with
    typ := ptColl, tc := tcColl, coll := field, data8 := (c.id.setWidth 64 <<< 32) ||| BitVec.ofNat 64 (lo % 2 ^ 32)
    rgen := s.gen (domContext c.ctx.val) }

/-- Sends a packet to the package of a rank; `who` says what its answer is for. -/
def State.sendColl (s : State) (c : Coll) (die rank : Nat) (who : Nat × Nat) (p : Packet) : State :=
  match s.peerEp c rank with
  | (s, none) => s.collAnswered c.ring c.idx who.1 who.2 stConfig
  | (s, some ep) =>
    let r : SrcReq := ⟨some c.ctx, domContext c.ctx.val, .coll c.ring c.idx who.1 who.2, { p with dstEp := ep }, some (dieOf die)⟩
    { s with fab := { s.fab with src := s.fab.src ++ [r] } }

/-- What an answer of an engine's packet or write is for. -/
def akTile : Nat := 0
def akData : Nat := 1
def akRows : Nat := 2
def akHeld : Nat := 3
def akYield : Nat := 4
def akOther : Nat := 5
def akWrite : Nat := 6

/-- A packet without data: HELD, GO, YIELD and the like. -/
def State.sendKind (s : State) (c : Coll) (rank kind ak lo : Nat) : State :=
  s.sendColl c 0 rank (ak, 0) (s.collPacket c (collField kind lvlNone false 0 0 0 0 0) lo)

/-! ## The end of a collective (R353, R354) -/

/-- The packages that are told of an early end. -/
def Coll.endTo (c : Coll) : List Nat :=
  if c.phase = CollPhase.running then
    c.levels.flatMap fun a => if c.ext a = 2 then [c.peer a false] else [c.peer a false, c.peer a true]
  else if c.rank = 0 then (List.range c.size).filter fun k => k != 0
  else [0]

/-- Latches COL_ERR in both instances. -/
def State.latchColErr (s : State) (ctx : Nat) (id : BitVec 32) (st : BitVec 8) (cause : Nat) : State :=
  let w : Word := setField (setField (setField (setField 0 56 8 st.toNat) 52 4 ctx) 48 4 cause) 0 32 id.toNat
  (s.setReg (rColErr 0) w).setReg (rColErr 1) w

/-- Takes a collective off the package: its slots are free, its later packets are late. -/
def State.dropColl (s : State) (c : Coll) : State :=
  { s with
    colls := s.colls.filter fun x => !(x.ring == c.ring && x.idx == c.idx)
    fab := { s.fab with ended := (c.epn, c.id) :: s.fab.ended } }

/-- Ends a collective with an error status and tells the others. -/
def State.endColl (s : State) (r : Nat) (i : BitVec 32) (st : BitVec 8) (cause : Nat) : State :=
  match s.findColl r i with
  | none => s
  | some c =>
    let s := (s.latchColErr c.ctx.val c.id st cause).modCmd r i fun m => { m.finish st with detail := BitVec.ofNat 32 cause }
    let p := { s.collPacket c (collField ckEnd lvlNone false 0 0 0 0 0) 0 with status := st }
    (c.endTo.foldl (fun s k => s.sendColl c 0 k (akOther, 0) p) s).dropColl c

/-- A result or the end of the collective. -/
def State.orEnd {α : Type} (x : Res α) (r : Nat) (i : BitVec 32) (f : State → α → State) : State :=
  match x with
  | (s, .ok a) => f s a
  | (s, .error e) => s.endColl r i e.1 e.2

/-! ## Reads -/

/-- A tile as an engine reads it. -/
def State.engineTile (s : State) (pa ctx : Nat) (fmt : BitVec 8) : Res TileImg :=
  match placeOf pa with
  | .hbm _ _ | .reservoir _ | .cluster _ _ =>
    if s.fencedPlace (placeOf pa) then (s, .error (stFenced, ccFence))
    else
      let s := ((s.landSome (pa / 4096)).countRows (placeOf pa) false 64).countUncorr (placeOf pa)
      let t := s.mem.serve (pa / 4096)
      (s, .ok (if s.failedStack (placeOf pa) then ⟨t.data, summed (withPoison t.tcr)⟩ else t))
  | .host port off =>
    if s.pcieUp port then
      let data := BitVec.ofNat 32768 (hostBytes s.freeCtr off 4096)
      let s := s.draw.count (145 + 2 * port.val) 4096
      (s, .ok (s.entryImg data 1 fmt ctx))
    else (s, .error (stLinkLoss, ccTile))
  | _ => (s, .error (stConfig, ccDesc))

/-- Logs a classification of an engine in the log of the tile's partition (R227). -/
def State.flogTile (s : State) (pa : Nat) (cl : Class) (rec' : TileRec) : State :=
  match cl, (placeOf pa).partition with
  | .torn, some p => s.flog p false true 127 0 rec' (placeOf pa).level (pa / 4096)
  | .corrupt r, some p => s.flog p false false r 0 rec' (placeOf pa).level (pa / 4096)
  | _, _ => s

/-- Reads the tile of a source at a context address in partition p, and checks `rows` of it and its format (R339, R348). -/
def State.sourceTile (s : State) (c : Coll) (p : Fin 4) (ca : Nat) (rows : List Nat) (whole : Bool) : Res TileImg :=
  let x := s.translate p c.ctx.val (BitVec.ofNat 64 ca) false
  match x.pa with
  | .error _ => (x.s, .error (stConfig, ccDesc))
  | .ok pa =>
    match x.s.engineTile (pa / 4096 * 4096) c.ctx.val (BitVec.ofNat 8 c.inFmt) with
    | (s, .error e) => (s, .error e)
    | (s, .ok t) =>
      match classify t.data t.tcr rows whole with
      | .torn => (s.flogTile pa .torn t.tcr, .error (stTorn, ccTile))
      | .corrupt n => (s.flogTile pa (.corrupt n) t.tcr, .error (stCorrupt, ccTile))
      | .good =>
        if t.tcr.fmt.toNat ≠ c.inFmt ∨ (c.op ≠ opDispatch ∧ t.tcr.fmt = fmtKS64 ∧ t.tcr.anchor ≠ c.anchor) then
          (s, .error (stConfig, ccTile))
        else (s, .ok t)

/-- Whole tile `k` of partition p's source. -/
def State.srcTile (s : State) (c : Coll) (p : Fin 4) (k : Nat) : Res TileImg :=
  s.sourceTile c p (c.src + p.val * c.pstride + k * 4096) (List.range 64) true

/-- The contribution of partition p to a chunk. -/
def State.contribution (s : State) (c : Coll) (idx : Nat) (p : Fin 4) : Res (List (BitVec 80)) :=
  let e := idx % c.m * 512
  match s.srcTile c p (idx / c.m * c.srcTiles + e / c.input.perTile) with
  | (s, .error x) => (s, .error x)
  | (s, .ok t) => (s, .ok (c.elems t.data (e % c.input.perTile)))

/-- The contributions of a list of partitions, none for an absent one. -/
def State.contributions (s : State) (c : Coll) (idx : Nat) : List (Fin 4) → Res (List (Option (List (BitVec 80))))
  | [] => (s, .ok [])
  | p :: r =>
    let x : Res (Option (List (BitVec 80))) :=
      if c.has p.val then
        match s.contribution c idx p with
        | (s, .ok v) => (s, .ok (some v))
        | (s, .error e) => (s, .error e)
      else (s, .ok none)
    match x with
    | (s, .error e) => (s, .error e)
    | (s, .ok v) => match s.contributions c idx r with
      | (s, .ok l) => (s, .ok (v :: l))
      | (s, .error e) => (s, .error e)

/-- The package partial of a chunk (R334). -/
def State.packagePartial (s : State) (c : Coll) (idx : Nat) : Res (List (BitVec 80)) :=
  match s.contributions c idx allParts with
  | (s, .ok l) => (s, .ok (c.packageSum l))
  | (s, .error e) => (s, .error e)

/-! ## Slots -/

def Coll.modChunk (c : Coll) (f : Chunk → Bool) (g : Chunk → Chunk) : Coll := { c with chunks := updWhere f g c.chunks }

/-- The slot in which a ring level receives a chunk. -/
def Coll.slotAt (c : Coll) (lvl : Nat) (ag : Bool) (idx : Nat) : Option Chunk :=
  c.chunks.find? fun x => x.lvl == lvl && x.ag == ag && x.idx == idx && x.inbound

/-- The slot of this package's own value of a chunk after the levels below `lvl`. -/
def Coll.ownSlot (c : Coll) (lvl idx : Nat) : Option Chunk :=
  c.chunks.find? fun x => !x.ag && x.own && x.idx == idx && decide (x.lvl < lvl) && c.nextLevel (some x.lvl) == some lvl

/-- The first ring level. -/
def Coll.firstLevel (c : Coll) : Option Nat := c.nextLevel none

/-- The local partial at a ring level, and whether its far point made a SAT partial invalid; none while it is not there. -/
def State.localPartial (s : State) (c : Coll) (lvl idx : Nat) : Res (Option (List (BitVec 80) × Bool)) :=
  if c.firstLevel = some lvl then
    match s.packagePartial c idx with
    | (s, .ok v) => (s, .ok (some (if lvl = 2 then c.farPoint v else (v, false))))
    | (s, .error e) => (s, .error e)
  else (s, .ok ((c.ownSlot lvl idx).map fun x => (x.vals, false)))

/-- Key of a chunk complete in a level and phase (R344). -/
def finKey (lvl : Nat) (ag : Bool) (idx : Nat) : Nat := (idx * 4 + lvl) * 2 + if ag then 1 else 0

/-- Key of a step of a quad. -/
def stepKey (q lvl : Nat) (ag : Bool) (stp : Nat) : Nat := ((q * 4 + lvl) * 2 + if ag then 1 else 0) * 128 + stp

/-- A received chunk is complete. -/
def Coll.completed (c : Coll) (x : Chunk) : Coll :=
  { c with
    fin := finKey x.lvl x.ag x.idx :: c.fin
    stepDone := mmod (fun _ => 0) c.stepDone (stepKey x.q x.lvl x.ag x.stp) (· + 1) }

/-- Chunks that a step receives. -/
def Coll.expected (c : Coll) (q lvl : Nat) (ag : Bool) (stp : Nat) : Nat :=
  let g := c.seg q lvl (c.recvSeg q lvl ag stp)
  (g.2 - g.1) * if ag then 1 else c.m

def Coll.stepComplete (c : Coll) (q lvl : Nat) (ag : Bool) (stp : Nat) : Bool :=
  mget (fun _ => 0) c.stepDone (stepKey q lvl ag stp) == c.expected q lvl ag stp

/-! ## Results (R338) -/

/-- A result tile as this package writes it. -/
def State.resultImg (s : State) (c : Coll) (data : TileData) : TileImg :=
  ⟨data, freshRec data 0 c.outCode 0 (s.ownerOf c.ctx.val) c.outAnchor⟩

/-- Writes a result tile at `off` of partition p's destination. -/
def State.resultTile (s : State) (c : Coll) (p : Fin 4) (off idx : Nat) (data : TileData) : State :=
  let x := s.translate p c.ctx.val (BitVec.ofNat 64 (c.dst + p.val * c.pstride + off)) true
  match x.pa with
  | .error _ => x.s.endColl c.ring c.idx stConfig ccDesc
  | .ok pa =>
    let s := x.s.modColl c.ring c.idx fun c => { c with written := c.written + 1, left := c.left + 1 }
    s.tileWrite pa (domContext c.ctx.val) (s.resultImg c data) (.coll c.ring c.idx akTile idx)

/-- An output tile of a unit is here: it is written, and in an all-gather sent on. `from'` is the level it came by (3 for this
package) and `more` the sends that it asks for. -/
def State.unitHere (s : State) (c : Coll) (x : Chunk) (data : TileData) (more : List CollItem) : State :=
  let x := { x with tile := some (s.resultImg c data), complete := true, used := true, writes := c.present.length }
  let s := s.modColl c.ring c.idx fun c => { c with chunks := c.chunks ++ [x], todo := c.todo ++ more }
  c.present.foldl (fun s p => s.resultTile c p (x.idx / c.m * 4096) x.idx data) s

/-- A blank slot. -/
def blankChunk (q lvl : Nat) (ag : Bool) (stp idx : Nat) : Chunk :=
  { q := q, lvl := lvl, ag := ag, stp := stp, idx := idx, got := 0, vals := [], tile := none, complete := false, own := false
    inbound := false, used := false, sends := [], writes := 0 }

/-- An output tile of this package's own segment: written to its owner, or gathered through every level (R333, R338). -/
def State.ownUnit (s : State) (c : Coll) (u : Nat) (data : TileData) : State :=
  let q := u % 4
  if c.op = opReduceScatter then
    s.resultTile c ⟨q % 4, by omega⟩ ((u / 4 - (c.owned q).1) * 4096) (u * c.m) data
  else
    s.unitHere c { blankChunk q 3 true 0 (u * c.m) with own := true } data
      (c.levels.reverse.map fun a => ⟨q, a, true, 0, u * c.m⟩)

/-- Own values that have passed every level. -/
def Coll.finals (c : Coll) (u : Nat) : List Chunk :=
  c.chunks.filter fun x => !x.ag && x.own && !x.used && x.idx / c.m == u && (x.lvl == 3 || c.nextLevel (some x.lvl) == none)

/-- Writes a unit once all its chunks are final. -/
def State.tryUnit (s : State) (r : Nat) (i : BitVec 32) (u : Nat) : State :=
  match s.findColl r i with
  | none => s
  | some c =>
    let l := (List.range c.m).filterMap fun j => (c.finals u).find? fun x => x.idx == u * c.m + j
    if l.length ≠ c.m then s
    else
      let (data, sat) := c.outTile (l.flatMap Chunk.vals)
      let c' := c.modChunk (fun x => l.contains x) fun x => { x with used := true }
      let s := s.modColl r i fun _ => { c' with sat := c'.sat || sat }
      s.ownUnit c u data

/-! ## Reduce-scatter -/

/-- Combines the partial received for a chunk with the local one, where both are there, and moves the chunk on: to the next
step, or, when it is this package's own, to the next level (R333, R335, R336). -/
def State.combineAt (r : Nat) (i : BitVec 32) : Nat → Nat → Nat → State → State
  | 0, _, _, s => s
  | n + 1, lvl, idx, s =>
    match s.findColl r i with
    | none => s
    | some c => match c.slotAt lvl false idx with
      | none => s
      | some x =>
        if x.complete ∨ x.got ≠ 3 then s
        else State.orEnd (s.localPartial c lvl idx) r i fun s y =>
          match y with
          | none => s
          | some (l, sat) =>
            let v := c.combine lvl x.vals l
            let own : Bool := x.stp + 2 = c.ext lvl
            let next := c.nextLevel (some lvl)
            let far : Bool := own && decide (lvl < 2) && (next == none || next == some 2)
            let (v, sat') := if far then c.farPoint v else if own ∧ lvl = 2 then (c.endZ v, false) else (v, false)
            let x' := { x with vals := v, complete := true, own := own }
            let c := (c.modChunk (fun z => z == x) fun _ => x').completed x
            let c := c.modChunk (fun z => !z.ag && z.own && z.idx == idx && decide (z.lvl < lvl)) fun z => { z with used := true }
            let c := { c with sat := c.sat || sat || sat' }
            if !own then s.modColl r i fun _ => { c with todo := c.todo ++ [⟨x.q, lvl, false, x.stp + 1, idx⟩] }
            else match next with
              | some a =>
                if c.inSeg x.q a (c.sendSeg x.q a false 0) idx then
                  s.modColl r i fun _ => { c with todo := c.todo ++ [⟨x.q, a, false, 0, idx⟩] }
                else (s.modColl r i fun _ => c).combineAt r i n a idx
              | none => (s.modColl r i fun _ => c).tryUnit r i (idx / c.m)

/-- Elements of a DATA payload. -/
def payloadVals : Payload → List (BitVec 80)
  | .wide d => (List.range 256).map fun k => BitVec.ofNat 80 (bitsAt d (80 * k) 80)
  | .f32p d => (List.range 512).map fun k => BitVec.ofNat 80 (bitsAt d (32 * k) 32)
  | _ => []

/-- Adds a received partial, or one half of one, to its slot (R343). -/
def Chunk.take (x : Chunk) (wide : Bool) (half : Nat) (v : List (BitVec 80)) : Chunk :=
  if !wide then { x with got := 3, vals := v }
  else
    let lo := if half = 0 then v else x.vals.take 256
    let hi := if half = 0 then x.vals.drop 256 else v
    { x with got := x.got ||| (if half = 0 then 1 else 2), vals := lo ++ hi }

/-- A partial for a chunk has come. -/
def State.takePartial (s : State) (c : Coll) (q lvl stp idx half : Nat) (v : List (BitVec 80)) : State :=
  let s := s.modColl c.ring c.idx fun c => match c.slotAt lvl false idx with
    | some x => c.modChunk (fun z => z == x) fun z => z.take (c.wide lvl) half v
    | none =>
      let x := { blankChunk q lvl false stp idx with inbound := true, vals := List.replicate 512 0 }
      { c with chunks := c.chunks ++ [x.take (c.wide lvl) half v] }
  s.combineAt c.ring c.idx 3 lvl idx

/-- A result tile has come: it is written and sent on in its own level and in those below. -/
def State.takeTile (s : State) (c : Coll) (q lvl stp idx : Nat) (data : TileData) : State :=
  let x := { blankChunk q lvl true stp idx with inbound := true }
  let sat : Bool := c.reduces && c.outCode == fmtKS64 && (List.range 512).any fun e =>
    let w := BitVec.ofNat 64 (bitsAt data (64 * e) 64)
    w == ksSatPos || w == ksSatNeg
  let s := s.modColl c.ring c.idx fun c => { c.completed x with sat := c.sat || sat }
  let on := if stp + 2 < c.ext lvl then [CollItem.mk q lvl true (stp + 1) idx] else []
  let low := (c.levels.reverse.filter fun a => decide (a < lvl)).map fun a => CollItem.mk q a true 0 idx
  s.unitHere c x data (on ++ low)

/-! ## Sending chunks (R335, R342, R345) -/

/-- Key of a DATA packet. -/
def dataKey (it : CollItem) (half : Nat) : Nat := finKey it.lvl it.ag it.idx * 256 + it.stp * 2 + half

/-- The DATA packet of a chunk, or of a half of one. -/
def State.dataPacket (s : State) (c : Coll) (it : CollItem) (half : Nat) (vals : List (BitVec 80)) (tile : Option TileImg) :
    Packet :=
  let pay := match tile with
    | some t => Payload.tile t
    | none =>
      if c.wide it.lvl then
        .wide (BitVec.ofNat 20480 (packNat 80 ((if half = 0 then vals.take 256 else vals.drop 256).map BitVec.toNat)))
      else .f32p (BitVec.ofNat 16384 (packNat 32 (vals.map BitVec.toNat)))
  { s.collPacket c (collField ckData it.lvl it.ag it.stp half (it.q % 2) 0 0) (crc32c (payloadBytes pay)).toNat with
    offset := BitVec.ofNat 40 it.idx, seq := BitVec.ofNat 16 it.idx, payload := pay }

/-- Halves of a chunk at a level. -/
def Coll.halves (c : Coll) (it : CollItem) : List Nat := if !it.ag && c.wide it.lvl then [0, 1] else [0]

/-- Sends a chunk from a slot. -/
def State.sendChunk (s : State) (c : Coll) (it : CollItem) (vals : List (BitVec 80)) (tile : Option TileImg) : State :=
  (c.halves it).foldl (fun s h =>
    s.sendColl c (it.q / 2) (c.peer it.lvl (it.q % 2 == 1)) (akData, dataKey it h) (s.dataPacket c it h vals tile)) s

/-- The slot from which an item is sent; none for a package partial, which takes a slot then. -/
def Coll.sourceSlot (c : Coll) (it : CollItem) : Option Chunk :=
  if it.ag then c.chunks.find? fun x => x.ag && x.idx == it.idx
  else if it.stp = 0 then c.ownSlot it.lvl it.idx
  else c.slotAt it.lvl false it.idx

/-- An item may be sent: a credit is there, and without PIPE the step before is complete (R326, R342). -/
def Coll.maySend (c : Coll) (it : CollItem) : Bool :=
  decide (0 < mget (fun _ => 0) c.credits (it.q * 4 + it.lvl)) &&
    (c.pipe || it.stp == 0 || c.stepComplete it.q it.lvl it.ag (it.stp - 1))

/-- Sends an item if it may be sent. -/
def State.tryItem (r : Nat) (i : BitVec 32) (s : State) (it : CollItem) : State :=
  match s.findColl r i with
  | none => s
  | some c =>
    if !c.todo.contains it || !c.maySend it then s
    else
      let keys := (c.halves it).map (dataKey it)
      let taken := fun (c : Coll) => { c with
        todo := c.todo.erase it
        credits := mmod (fun _ => 0) c.credits (it.q * 4 + it.lvl) (· - 1) }
      match c.sourceSlot it with
      | some x =>
        let c' := c.modChunk (fun z => z == x) fun z => { z with used := true, sends := z.sends ++ keys }
        (s.modColl r i fun _ => taken c').sendChunk c it x.vals x.tile
      | none => State.orEnd (s.localPartial c it.lvl it.idx) r i fun s y =>
        match y with
        | none => s
        | some (v, sat) =>
          let x := { blankChunk it.q it.lvl false 0 it.idx with vals := v, complete := true, used := true, sends := keys }
          (s.modColl r i fun c => taken { c with chunks := c.chunks ++ [x], sat := c.sat || sat }).sendChunk c it v none

/-! ## Dispatch (R346 to R350) -/

/-- Key of a count: partition and member. -/
def pairKey (p m : Nat) : Nat := p * 256 + m

/-- Reads index entry `k` of partition p. -/
def State.indexEntry (s : State) (c : Coll) (p : Fin 4) (k : Nat) : Res Nat :=
  match s.ctxBytes p c.ctx.val (c.idxAt + (p.val * c.items + k) * 4) 4 with
  | (s, .ok b) => (s, .ok (leNat b))
  | (s, .error e) => (s, .error (e, ccDesc))

/-- Reads and checks item `k` of partition p (R348). -/
def State.itemRows (s : State) (c : Coll) (p : Fin 4) (k : Nat) : Res (List Row) :=
  let ca := c.src + p.val * c.pstride + k * c.itemRows * 64
  let first := ca / 64 % 64
  let rows := (List.range c.itemRows).map (first + ·)
  match s.sourceTile c p (ca / 4096 * 4096) rows (c.itemRows == 64) with
  | (s, .ok t) => (s, .ok (rows.map fun r => tileRow t.data r))
  | (s, .error e) => (s, .error e)

/-- Writes an item into a slot of partition p's destination (R347, R348). -/
def State.writeItem (s : State) (c : Coll) (p : Fin 4) (slot : Nat) (rows : List Row) : State :=
  let x := s.translate p c.ctx.val (BitVec.ofNat 64 (c.dst + p.val * c.pstride + slot * c.itemRows * 64)) true
  match x.pa with
  | .error _ => x.s.endColl c.ring c.idx stConfig ccDesc
  | .ok pa =>
    let s := x.s.modColl c.ring c.idx fun c => { c with left := c.left + 1 }
    let who := Requester.coll c.ring c.idx akWrite 0
    if c.itemRows = 64 then s.tileWrite pa (domContext c.ctx.val) (s.resultImg c (tileOfRows rows)) who
    else s.bytesWrite pa (domContext c.ctx.val) (64 * c.itemRows) (packNat 512 (rows.map BitVec.toNat)) who

/-- An item for partition `dp` of this package, into `slot` of its destination: written unless it has been before (R344). -/
def State.landItem (s : State) (c : Coll) (dp : Fin 4) (slot : Nat) (rows : List Row) : State :=
  let key := dp.val * 0x1000000 + slot
  if c.fin.contains key then s
  else
    let s := s.modColl c.ring c.idx fun c => { c with
      fin := key :: c.fin
      recvItems := mmod (fun _ => 0) c.recvItems (pairKey dp.val (slot / c.cap)) (· + 1) }
    s.writeItem c dp slot rows

/-- The DATA packet of an item, one item a packet (DESIGN CHOICE, log entry 36). -/
def State.rowsPacket (s : State) (c : Coll) (p d slot : Nat) (rows : List Row) : Packet :=
  let pay := Payload.rows rows
  { s.collPacket c (collField ckData lvlNone false 0 0 0 p (d % 4)) (crc32c (payloadBytes pay)).toNat with
    offset := BitVec.ofNat 40 slot, seq := BitVec.ofNat 16 slot, mask := 1, payload := pay }

/-- Key of an item's packet. -/
def itemKey (p d k i : Nat) : Nat := (pairKey p d * 0x10000 + k) * 0x100000 + i

/-- Sends, drops or skips item `k` of partition p (R346, R347). -/
def State.dispatchItem (r : Nat) (i : BitVec 32) (p : Fin 4) (s : State) (k : Nat) : State :=
  match s.findColl r i with
  | none => s
  | some c => State.orEnd (s.indexEntry c p k) r i fun s e =>
    if 2 ^ 31 ≤ e then s
    else if c.members ≤ e then s.endColl r i stConfig ccDesc
    else
      let me := 4 * c.rank + p.val
      let n := mget (fun _ => 0) c.sentItems (pairKey p.val e)
      if c.cap ≤ n then
        s.modColl r i fun c => { c with dropItems := mmod (fun _ => 0) c.dropItems (pairKey p.val e) (· + 1) }
      else State.orEnd (s.itemRows c p k) r i fun s rows =>
        let s := s.modColl r i fun c => { c with sentItems := mmod (fun _ => 0) c.sentItems (pairKey p.val e) (· + 1) }
        let slot := me * c.cap + n
        if e / 4 = c.rank then
          match s.findColl r i with
          | some c => s.landItem c ⟨e % 4, by omega⟩ slot rows
          | none => s
        else
          let key := itemKey p.val e n k
          let s := s.modColl r i fun c => { c with unacked := key :: c.unacked }
          s.sendColl c (p.val / 2) (e / 4) (akRows, key) (s.rowsPacket c p.val e slot rows)

/-- The item counts of a source partition for the four partitions of a package, as MASK of FIN (R350). -/
def Coll.finMask (c : Coll) (p rank : Nat) : Word :=
  (List.range 4).foldl (fun w d => setField w (16 * d) 16 (mget (fun _ => 0) c.sentItems (pairKey p (4 * rank + d)))) 0

/-- Sends FIN of a source partition to every package (R350). -/
def State.sendFins (s : State) (r : Nat) (i : BitVec 32) (p : Fin 4) : State :=
  match s.findColl r i with
  | none => s
  | some c =>
    let s := s.modColl r i fun c => { c with fins := c.fins ++ [(4 * c.rank + p.val, c.finMask p.val c.rank)] }
    (List.range c.size).foldl (fun s k =>
      if k = c.rank then s
      else s.sendColl c (p.val / 2) k (akOther, 0)
        { s.collPacket c (collField ckFin lvlNone false 0 0 0 p.val 0) 0 with mask := c.finMask p.val k }) s

/-- A DISPATCH runs: every item of every partition, then FIN. -/
def State.runDispatch (s : State) (r : Nat) (i : BitVec 32) (c : Coll) : State :=
  allParts.foldl (fun s p => ((List.range c.items).foldl (State.dispatchItem r i p) s).sendFins r i p) s

/-- Every member's FIN has come, and every item it counts is here. -/
def Coll.allFins (c : Coll) : Bool :=
  (List.range c.members).all fun m => match c.fins.find? fun f => f.1 == m with
    | some f => (List.range 4).all fun d => mget (fun _ => 0) c.recvItems (pairKey d m) == fieldN f.2 (16 * d) 16
    | none => false

/-- The parts of `n` bytes at an address that lie in one tile each: offset and length. -/
def pieces (a n : Nat) : List (Nat × Nat) :=
  let k := 4096 - a % 4096
  if n ≤ k then [(0, n)] else [(0, k), (k, n - k)]

/-- Writes the count arrays (R349). -/
def State.writeCounts (s : State) (c : Coll) : State :=
  let s := s.modColl c.ring c.idx fun c => { c with counted := true }
  allParts.foldl (fun s p => (List.range c.members).foldl (fun s m =>
    let v := mget (fun _ => 0) c.recvItems (pairKey p.val m) +
      Nat.min (mget (fun _ => 0) c.dropItems (pairKey p.val m)) 0xFFFFFFFF * 2 ^ 32
    let ca := c.cntAt + p.val * 8 * c.members + 8 * m
    (pieces ca 8).foldl (fun s w =>
      let x := s.translate p c.ctx.val (BitVec.ofNat 64 (ca + w.1)) true
      match x.pa with
      | .error _ => x.s.endColl c.ring c.idx stConfig ccDesc
      | .ok pa => (x.s.modColl c.ring c.idx fun c => { c with left := c.left + 1 }).bytesWrite pa (domContext c.ctx.val) w.2
          (v >>> (8 * w.1)) (.coll c.ring c.idx akWrite 0)) s) s) s

/-! ## GO -/

/-- The chunks that the first ring level sends in step 0. -/
def Coll.firstItems (c : Coll) : List CollItem :=
  match c.firstLevel with
  | none => []
  | some a => (List.range 4).flatMap fun q =>
      (c.chunksOf q (c.seg q a (c.sendSeg q a false 0)) false).map fun idx => ⟨q, a, false, 0, idx⟩

/-- A group of one package: a chunk is final as soon as its package partial is. -/
def State.aloneChunk (r : Nat) (i : BitVec 32) (s : State) (idx : Nat) : State :=
  match s.findColl r i with
  | none => s
  | some c => State.orEnd (s.packagePartial c idx) r i fun s v =>
    let (v, sat) := c.farPoint v
    let x := { blankChunk (c.quad idx) 3 false 0 idx with vals := v, complete := true, own := true }
    (s.modColl r i fun c => { c with chunks := c.chunks ++ [x], sat := c.sat || sat }).tryUnit r i (idx / c.m)

/-- An input unit of an ALL_GATHER, read from its owner's source (R338). -/
def State.gatherUnit (r : Nat) (i : BitVec 32) (s : State) (u : Nat) : State :=
  match s.findColl r i with
  | none => s
  | some c =>
    let q := u % 4
    State.orEnd (s.srcTile c ⟨q % 4, by omega⟩ (u / 4 - (c.owned q).1)) r i fun s t => s.ownUnit c u t.data

/-- Units of a quad that this package owns. -/
def Coll.ownUnits (c : Coll) (q : Nat) : List Nat :=
  let r := c.owned q
  (List.range (r.2 - r.1)).map fun k => 4 * (r.1 + k) + q

/-- The package has GO: its rings start (R328, R342). -/
def State.runColl (s : State) (r : Nat) (i : BitVec 32) : State :=
  match s.findColl r i with
  | none => s
  | some c =>
    let grant := c.slots / (2 * c.levels.length)
    let c := { c with
      phase := .running, again := none, yield := none, lastData := mtab (fun _ => 0) (fun _ => s.now) 2 0
      credits := (List.range 16).foldl (fun m k => if c.levels.contains (k % 4) then mput (fun _ => 0) m k grant else m) [] }
    let s := s.modColl r i fun _ => c
    if c.op = opDispatch then s.runDispatch r i c
    else if c.op = opAllGather then
      ((List.range 4).flatMap c.ownUnits).foldl (State.gatherUnit r i) s
    else if c.levels.isEmpty then
      ((List.range 4).flatMap fun q => c.chunksOf q (0, c.listLen q) false).foldl (State.aloneChunk r i) s
    else s.modColl r i fun c => { c with todo := c.firstItems }

/-! ## Progress -/

/-- A DATA packet answered LINK_LOSS is sent once more (R352). -/
def State.resendData (s : State) (c : Coll) (kind key : Nat) : State :=
  if kind = akData then
    match c.chunks.find? fun x => x.sends.contains key with
    | none => s
    | some x =>
      let lvl := key / 512 % 4
      let it : CollItem := ⟨x.q, lvl, x.ag, key / 2 % 128, x.idx⟩
      (s.collEvt (x.q / 2) ceResend).sendColl c (x.q / 2) (c.peer lvl (x.q % 2 == 1)) (kind, key)
        (s.dataPacket c it (key % 2) x.vals x.tile)
  else
    let i := key % 0x100000
    let k := key / 0x100000 % 0x10000
    let d := key / 0x1000000000 % 256
    let p : Fin 4 := ⟨key / 0x100000000000 % 4, by omega⟩
    State.orEnd (s.itemRows c p i) c.ring c.idx fun s rows =>
      (s.collEvt (p.val / 2) ceResend).sendColl c (p.val / 2) (d / 4) (kind, key)
        (s.rowsPacket c p.val d ((4 * c.rank + p.val) * c.cap + k) rows)

/-- One answer to an engine (R331, R345, R352, R354). -/
def State.engineAnswer (r : Nat) (i : BitVec 32) (s : State) (a : Nat × Nat × BitVec 8) : State :=
  let (kind, key, st) := a
  match s.findColl r i with
  | none => s
  | some c =>
    if kind = akOther then s
    else if st = 0 then s.modColl r i fun c =>
      if kind = akTile then
        { c.modChunk (fun x => x.ag && x.idx == key && decide (0 < x.writes)) (fun x => { x with writes := x.writes - 1 }) with
          left := c.left - 1 }
      else if kind = akWrite then { c with left := c.left - 1 }
      else if kind = akData then c.modChunk (fun x => x.sends.contains key) fun x => { x with sends := x.sends.erase key }
      else if kind = akRows then { c with unacked := c.unacked.erase key }
      else c
    else if kind = akHeld ∨ kind = akYield then
      if c.phase = CollPhase.running then s
      else if st = stRwTimeout then s.modColl r i fun c => { c with again := some kind }
      else s.endColl r i st ccEnd
    else if (kind = akData ∨ kind = akRows) ∧ st = stLinkLoss ∧ c.resent.contains key = false then
      (s.modColl r i fun c => { c with resent := key :: c.resent }).resendData c kind key
    else s.endColl r i st (if st = stFenced then ccFence else 0)

/-- A slot is free (R345). -/
def Coll.freed (c : Coll) (x : Chunk) : Bool :=
  x.complete && x.used && x.sends.isEmpty && x.writes == 0 &&
    (!x.ag || c.todo.all fun it => !(it.ag && it.idx == x.idx))

/-- Frees slots, and returns the credits of those that an inbound peer had sent into (R342). -/
def State.sweepColl (s : State) (r : Nat) (i : BitVec 32) : State :=
  match s.findColl r i with
  | none => s
  | some c =>
    let gone := c.chunks.filter c.freed
    let s := s.modColl r i fun c => { c with chunks := c.chunks.filter fun x => !c.freed x }
    gone.foldl (fun s x =>
      if x.inbound then
        s.sendColl c (x.q / 2) (c.peer x.lvl (x.q % 2 == 0)) (akOther, 0)
          (s.collPacket c (collField ckCredit x.lvl x.ag 0 0 (x.q % 2) 0 0) 1)
      else s) s

/-- Result tiles that this package writes. -/
def Coll.results (c : Coll) : Nat :=
  if c.op = opReduceScatter then ((List.range 4).map fun q => (c.ownUnits q).length).foldl (· + ·) 0
  else c.units * c.present.length

/-- Everything that the rings bring to a quad has come. -/
def Coll.quadSteps (c : Coll) (q : Nat) : Bool :=
  c.levels.all fun a => (List.range (c.ext a - 1)).all fun k =>
    (!c.reduces || c.stepComplete q a false k) && (c.op == opReduceScatter || c.stepComplete q a true k)

/-- Everything that the rings bring has come. -/
def Coll.allSteps (c : Coll) : Bool := (List.range 4).all c.quadSteps

/-- The engine of a die waits for packets of the collective: FIN and items of a dispatch, or chunks and credits of its rings (R355). -/
def Coll.wants (c : Coll) (die : Nat) : Bool :=
  if c.op = opDispatch then !c.allFins
  else (c.todo.any fun it => it.q / 2 == die) || (List.range 4).any fun q => q / 2 == die && !c.quadSteps q

/-- The collective has nothing left to do on this package. -/
def Coll.finished (c : Coll) : Bool :=
  c.phase == CollPhase.running && c.left == 0 && (
    if c.op = opDispatch then c.counted
    else c.todo.isEmpty && c.chunks.isEmpty && c.written == c.results && c.allSteps)

/-- Another member may have met a SAT that this package does not see (R337): it writes no copy of every result. -/
def Coll.satElsewhere (c : Coll) : Bool :=
  c.reduces && decide (1 < c.size) && !(c.op == opAllReduce && c.output == .ks) && c.input == .ks

/-- Ends a collective that is done, with its warnings (R337, R351). Whether a package that this one does not see has met a
SAT is a free value. -/
def State.finishColl (s : State) (c : Coll) : State :=
  let sat := c.sat || (c.satElsewhere && Config.satElsewhere s.freeCtr)
  let s := if c.satElsewhere then s.draw else s
  let dropped := c.dropItems.any fun e => decide (0 < e.2)
  let warn : BitVec 8 := (if dropped then 2 else 0) ||| (if sat then 4 else 0)
  let st := if sat then stSaturated else if dropped then stDropped else stOk
  let s := if st = stOk then s else s.latchColErr c.ctx.val c.id st 0
  (s.modCmd c.ring c.idx fun m => { m with warn := m.warn ||| warn, done := true }).dropColl c

/-- Everything that can follow from what has come to a collective. -/
def State.progressColl (s : State) (r : Nat) (i : BitVec 32) : State :=
  match s.findColl r i with
  | none => s
  | some c =>
    let s := s.modColl r i fun c => { c with inbox := [] }
    let s := c.inbox.foldl (State.engineAnswer r i) s
    let s := match s.findColl r i with
      | some c => if c.phase == CollPhase.running then c.todo.foldl (State.tryItem r i) s else s
      | none => s
    let s := s.sweepColl r i
    let s := match s.findColl r i with
      | some c =>
        if c.op = opDispatch && c.phase == CollPhase.running && !c.counted && c.left == 0 && c.unacked.isEmpty && c.allFins then
          s.writeCounts c
        else s
      | none => s
    match s.findColl r i with
    | some c => if c.finished then s.finishColl c else s
    | none => s

/-- As `progressColl`, for every collective. -/
def State.engines (s : State) : State := s.colls.foldl (fun s c => s.progressColl c.ring c.idx) s

end Sys2Proof.Machine
end

