-- ==== Sys2Proof/Machine/CollRows.lean ====
section
/-! DEFINITION. How a package takes part in collectives: acceptance of a descriptor, reservation, the messages between engines
and their time limits (Collective operations, R321, R324 to R332, R341 to R345, R350, R353, R355), and the rows whose end an
engine may wait for. -/

namespace Sys2Proof.Machine

/-! ## Acceptance (R321, R324 to R327) -/

/-- Reserved fields of the descriptor are zero, and every field lies in its range (Table 9.1, Table 9.2, R325). -/
def collFieldsOk (d : BitVec 1024) : Bool :=
  let f := dsc d
  let op := f 0x14 1
  let red : Bool := op == 0 || op == 1
  let disp : Bool := op == 3
  let slots := f 0x1C 2
  let zero := fun o n => f o n == 0
  decide (op ≤ 3) &&
    f 0x17 1 / 2 % 8 == 0 && zero 0x1B 1 && zero 0x25 3 && zero 0x2C 4 && zero 0x31 3 && zero 0x70 16 &&
    (match collFmt (f 0x15 1) with
      | some i => if red then redFormats i (f 0x16 1) else true
      | none => !red && knownFormat (BitVec.ofNat 8 (f 0x15 1))) &&
    (red || zero 0x16 1) &&
    decide (1 ≤ f 0x18 1 ∧ f 0x18 1 ≤ 16 ∧ 1 ≤ f 0x19 1 ∧ f 0x19 1 ≤ 16 ∧ 1 ≤ f 0x1A 1 ∧ f 0x1A 1 ≤ 128) &&
    (slots == 0 || (slots % 2 == 0 && decide (8 ≤ slots ∧ slots ≤ 4096))) &&
    (zero 0x1E 2 || f 0x15 1 == 0x20) &&
    (if disp then zero 0x20 4 else decide (1 ≤ f 0x20 4 ∧ f 0x20 4 ≤ 2 ^ 24)) &&
    (if disp then [1, 2, 4, 8, 16, 32, 64].contains (f 0x24 1) else zero 0x24 1) &&
    (if disp then decide (1 ≤ f 0x28 4 ∧ f 0x28 4 ≤ 65535) else zero 0x28 4) &&
    decide (1 ≤ f 0x30 1 ∧ f 0x30 1 ≤ 63) &&
    (if disp then decide (f 0x34 4 ≤ 2 ^ 20) else zero 0x34 4) &&
    f 0x38 8 % 4096 == 0 && f 0x40 8 % 4096 == 0 && f 0x48 8 % 4096 == 0 &&
    f 0x17 1 / 16 != 0 && (op == 0 || f 0x17 1 / 16 == 15) &&
    (!disp || decide (f 0x18 1 * f 0x19 1 * f 0x1A 1 ≤ 64))

/-- A package's position on one axis of a group of extent `g`: none where the group breaks R321 or the package lies outside
the route box. -/
def groupPos (c b ext box g : Nat) : Option Nat :=
  let r := (c + ext - b % ext) % ext
  if r < box ∧ (g = 1 ∨ (g ≠ 0 ∧ box % g = 0)) then some (r % g) else none

/-- The positions of a package at coordinate `k` in the group of a context. -/
def State.positions (s : State) (ctx gx gy gz : Nat) (k : Coord) : Option (Nat × Nat × Nat) :=
  let (o, b) := s.routeBox ctx
  let e := s.extents
  match groupPos k.x o.x e.x b.x gx, groupPos k.y o.y e.y b.y gy, groupPos k.z o.z e.z b.z gz with
  | some x, some y, some z => some (x, y, z)
  | _, _, _ => none

/-- Translates a range piece by piece of 2 MiB: physical address and length of each; none where one fails. -/
def State.rangePieces (s : State) (p : Fin 4) (ctx : Nat) (write : Bool) : Nat → Nat → Nat → State × Option (List (Nat × Nat))
  | 0, _, _ => (s, some [])
  | k + 1, ca, n =>
    if n = 0 then (s, some [])
    else
      let x := s.translate p ctx (BitVec.ofNat 64 ca) write
      match x.pa with
      | .error _ => (x.s, none)
      | .ok pa =>
        let len := Nat.min n (0x200000 - ca % 0x200000)
        let (s, r) := x.s.rangePieces p ctx write k (ca + len) (n - len)
        (s, r.map fun l => (pa, len) :: l)

/-- As above, over the whole range. -/
def State.range (s : State) (p : Fin 4) (ctx : Nat) (write : Bool) (ca n : Nat) : State × Option (List (Nat × Nat)) :=
  s.rangePieces p ctx write (n / 0x200000 + 2) ca n

/-- Rounds up to whole tiles. -/
def tileUp (n : Nat) : Nat := (n + 4095) / 4096 * 4096

/-- Bytes of partition p's source and destination (R324, R338). -/
def Coll.srcLen (c : Coll) (p : Nat) : Nat :=
  if c.op = opDispatch then tileUp (c.items * c.itemRows * 64)
  else if c.op = opAllGather then (c.ownUnits p).length * 4096
  else c.units * c.srcTiles * 4096

def Coll.dstLen (c : Coll) (p : Nat) : Nat :=
  if c.op = opDispatch then tileUp (c.members * c.cap * c.itemRows * 64)
  else if c.op = opReduceScatter then (c.ownUnits p).length * 4096
  else c.units * 4096

/-- A destination lies wholly inside the window EPN of the context (R325). -/
def State.inWindow (s : State) (c : Coll) (l : List (Nat × Nat)) : Bool :=
  let n := c.epn
  s.winValid n && s.rbit (rEpwAttr n) 56 && s.winWr n && s.winCtx n == c.ctx.val &&
    l.all fun e => decide (s.winBase n ≤ e.1 ∧ e.1 + e.2 ≤ s.winBase n + s.winSize n)

/-- The ranges of partition p translate as R325 asks. -/
def State.rangesOk (s : State) (c : Coll) (p : Fin 4) : State × Bool :=
  let ctx := c.ctx.val
  let base := p.val * c.pstride
  let (s, a) := s.range p ctx false (c.src + base) (c.srcLen p.val)
  let (s, b) := s.range p ctx true (c.dst + base) (c.dstLen p.val)
  let ok := a.isSome && match b with | some l => s.inWindow c l | none => false
  if c.op = opDispatch then
    let (s, d) := s.range p ctx false (c.idxAt + p.val * c.items * 4) (c.items * 4)
    let cnt := c.cntAt + p.val * 8 * c.members
    let (s, e) := s.range p ctx false cnt (8 * c.members)
    let (s, f) := s.range p ctx true cnt (8 * c.members)
    (s, ok && d.isSome && e.isSome && f.isSome)
  else (s, ok)

def State.allRangesOk (s : State) (c : Coll) : List (Fin 4) → State × Bool
  | [] => (s, true)
  | p :: r => match s.rangesOk c p with
    | (s, true) => s.allRangesOk c r
    | (s, false) => (s, false)

/-- TIER of the installed licence: 2 is Standard (Table 12.12). -/
def State.tier (s : State) : Nat := s.fld rMgtLic 62 2

/-- The slot quota of a context (Table 10.19). -/
def State.slotQuota (s : State) (ctx : Nat) : Nat := s.fld (rCtxQuota ctx) 12 13

/-! ## Slots (R327, R332) -/

/-- Slots held on each engine. -/
def State.slotsHeld (s : State) (f : Coll → Bool) : Nat :=
  ((s.colls.filter fun c => c.phase != CollPhase.waiting && f c).map Coll.slots).foldl (· + ·) 0

/-- A waiting collective may take its slots. -/
def State.mayReserve (s : State) (c : Coll) : Bool :=
  c.phase == CollPhase.waiting && (s.colls.all fun x => x.phase != CollPhase.waiting || decide (c.id.toNat ≤ x.id.toNat)) &&
    decide (s.slotsHeld (fun _ => true) + c.slots ≤ 4096) &&
    decide (s.slotsHeld (fun x => x.ctx == c.ctx) + c.slots ≤ s.slotQuota c.ctx.val)

/-- The collective that a descriptor makes. Defaults come from COL_CFG: slots and the reservation limit from the north
instance, each engine's data limit from its own (log entry 37). -/
def State.newColl (s : State) (ring : Nat) (idx : BitVec 32) (ctx : Fin 16) (part : Fin 4) (d : BitVec 1024) (p : Nat × Nat × Nat) :
    Coll :=
  let dflt := fun v (n : Nat) => if v = 0 then n else v
  let us := fun o (r : Nat) => dflt (dsc d o 4 * 1000) (r * 1000000)
  { id := BitVec.ofNat 32 (dsc d 0x10 4), ring := ring, idx := idx, ctx := ctx, desc := d, part := part, px := p.1, py := p.2.1
    pz := p.2.2, phase := .waiting, since := s.now, lastMsg := s.now, lastData := []
    slots := dflt (dsc d 0x1C 2) (s.fld (rColCfg 0) 32 16), rwait := us 0x68 (s.fld (rColCfg 0) 16 16)
    dlimit := mtab (fun _ => 0) (fun k => us 0x6C (s.fld (rColCfg (dieOf k)) 0 16)) 2 0
    helds := [], goSent := false, again := none, yield := none, chunks := [], todo := [], credits := [], stepDone := [], fin := []
    written := 0, inbox := [], resent := [], sentItems := [], dropItems := [], recvItems := [], unacked := [], fins := [], left := 0
    counted := false, sat := false }

/-- Sends HELD or YIELD to the leader (R328 to R330). -/
def State.sendYield (s : State) (c : Coll) (expired : Bool) : State :=
  (s.modColl c.ring c.idx fun c => { c with yield := some expired, again := none, lastMsg := s.now }).sendKind c 0 ckYield akYield
    (if expired then 1 else 0)

/-- Holders of slots without GO yield to a lower COLL_ID that waits: one whose slots are free takes them and waits for no other
(R327, R329). -/
def State.yieldTo (s : State) (w : Coll) : State :=
  if s.mayReserve w then s
  else s.colls.foldl (fun s c =>
    if c.phase = CollPhase.held ∧ w.id.toNat < c.id.toNat ∧ c.yield = none then s.sendYield c false else s) s

/-- Refuses a COLLECTIVE: nothing is reserved (R325 to R327). -/
def State.refuseColl (s : State) (ring : Nat) (idx : BitVec 32) (ctx : Nat) (d : BitVec 1024) (st : BitVec 8) (cause : Nat) :
    State :=
  (s.latchColErr ctx (BitVec.ofNat 32 (dsc d 0x10 4)) st cause).modCmd ring idx fun m =>
    { m.finish st with detail := BitVec.ofNat 32 cause }

/-- The package accepts or refuses a COLLECTIVE descriptor. -/
def State.acceptColl (s : State) (ring : Nat) (idx : BitVec 32) (ctx : Fin 16) (part : Fin 4) (d : BitVec 1024) : State :=
  let no := fun (s : State) st cause => s.refuseColl ring idx ctx.val d st cause
  match s.positions ctx.val (dsc d 0x18 1) (dsc d 0x19 1) (dsc d 0x1A 1) s.coord with
  | none => no s stConfig ccDesc
  | some p =>
    let c := s.newColl ring idx ctx part d p
    if !collFieldsOk d then no s stConfig ccDesc
    else match s.allRangesOk c c.present with
    | (s, false) => no s stConfig ccDesc
    | (s, true) =>
      if ((c.reduces && c.far == 2) || c.pipe) && s.tier != 2 then no s stLicence ccLicence
      else if s.slotQuota ctx.val < c.slots then no s stQuota ccQuota
      else
        let ended := s.fab.ended.filter fun e => e != (c.epn, c.id)
        ({ s with colls := s.colls ++ [c], fab := { s.fab with ended := ended } }).yieldTo c

/-! ## Reservation (R327, R328, R331, R332) -/

/-- Sends HELD with the group digest. -/
def State.sendHeld (s : State) (c : Coll) : State :=
  (s.modColl c.ring c.idx fun c => { c with again := none, lastMsg := s.now }).sendKind c 0 ckHeld akHeld (groupDigest c.desc).toNat

/-- RESERVATION. -/
def execReservation (collId : BitVec 32) (s : State) : Answer :=
  .next (match s.colls.find? fun c => c.id == collId && s.mayReserve c with
    | some c => (s.modColl c.ring c.idx fun c => { c with phase := .held }).sendHeld c
    | none => s)

/-- RWAIT_EXPIRY: no GO within RWAIT; the leader ends the collective, any other package sends YIELD with the flag (R330). -/
def execRwaitExpiry (collId : BitVec 32) (s : State) : Answer :=
  .next (match s.colls.find? fun c => c.id == collId && c.phase != CollPhase.running && decide (c.since + c.rwait ≤ s.now) with
    | some c =>
      if c.rank = 0 then (if c.goSent then s else (s.endColl c.ring c.idx stRwTimeout ccWait).engines)
      else if c.yield = some true then s
      else s.sendYield c true
    | none => s)

/-- COLL_RETRY: a refused HELD or YIELD is sent again every 10 µs until RWAIT expires (R331). -/
def execCollRetry (collId : BitVec 32) (s : State) : Answer :=
  .next (match s.colls.find? fun c => c.id == collId && c.again.isSome && decide (c.lastMsg + 10000 ≤ s.now) with
    | some c =>
      if c.since + c.rwait ≤ s.now ∧ c.again = some akHeld then s
      else if c.again = some akHeld then s.sendHeld c
      else s.sendYield c (c.yield == some true)
    | none => s)

/-- DLIMIT_EXPIRY: an engine has waited DLIMIT for a packet (R355). -/
def execDlimitExpiry (die : Fin 2) (collId : BitVec 32) (s : State) : Answer :=
  .next (match s.colls.find? fun c => c.id == collId && c.phase == CollPhase.running with
    | some c =>
      if 1 < c.size ∧ c.wants die.val = true ∧ mget (fun _ => 0) c.lastData die.val + mget (fun _ => 0) c.dlimit die.val ≤ s.now then
        (s.endColl c.ring c.idx stTimeout ccWait).engines
      else s
    | none => s)

/-! ## Messages -/

/-- The rank of the package that sent a packet, by its coordinate. -/
def State.senderRank (s : State) (c : Coll) (port : Nat) (p : Packet) : Option Nat :=
  let k := coordOf (eCoord (s.ept (port / 18) p.bank p.srcEp.toNat))
  (s.positions c.ctx.val (c.ext 0) (c.ext 1) (c.ext 2) k).map fun x => c.rankAt x.1 x.2.1 x.2.2

/-- The collective that a packet is for. -/
def State.collOf (s : State) (port : Nat) (p : Packet) : Option Coll :=
  let n := s.lepOf (port / 18) p
  s.colls.find? fun c => c.id == collIdOf p && c.epn == n

/-- A packet of an ended collective (R353). -/
def State.lateColl (s : State) (port : Nat) (p : Packet) : State := (s.collEvt (port / 18) ceLate).answer port p stFenced

/-- A message to a leader that has not accepted the collective is to be sent again (R331). -/
def State.unknownColl (s : State) (port : Nat) (p : Packet) : State :=
  if s.fab.ended.contains (s.lepOf (port / 18) p, collIdOf p) then s.lateColl port p
  else s.respond port (responseTo p ptNack stRwTimeout 1 .none)

/-- A COLL packet of one kind arrives; `f` acts on it with its collective, `g` answers where there is none. -/
def State.collComes (s : State) (port : Nat) (p : Packet) (kind : Nat) (g : State → State) (f : State → Coll → State) : State :=
  if p.typ = ptColl ∧ cfKind p.coll = kind then
    s.ingress port p fun s => match s.collOf port p with
      | none => g s
      | some c =>
        (f (s.modColl c.ring c.idx fun c => { c with lastData := mput (fun _ => 0) c.lastData (port / 18) s.now }) c).engines
  else s

/-- Every package of the group is held: GO to each in ascending rank, or the end where two digests differ (R328). -/
def State.tryGo (s : State) (r : Nat) (i : BitVec 32) : State :=
  match s.findColl r i with
  | none => s
  | some c =>
    if c.goSent || (List.range c.size).any fun k => !c.helds.any fun h => h.1 == k then s
    else if c.helds.any fun h => c.helds.any fun g => g.2 != h.2 then s.endColl r i stConfig ccDesc
    else
      (List.range c.size).foldl (fun s k => s.sendKind c k ckGo akOther 0) (s.modColl r i fun c => { c with goSent := true })

/-- HELD. -/
def execCollHeld (port : Fin 36) (pkt : Packet) (s : State) : Answer :=
  .next (s.collComes port.val pkt ckHeld (fun s => s.unknownColl port.val pkt) fun s c =>
    let s := s.answer port.val pkt stOk
    match s.senderRank c port.val pkt with
    | some k =>
      if c.rank = 0 then
        (s.modColl c.ring c.idx fun c => { c with
          helds := (c.helds.filter fun h => h.1 != k) ++ [(k, pkt.data8.setWidth 32)] }).tryGo c.ring c.idx
      else s
    | none => s)

/-- GO. -/
def execCollGo (port : Fin 36) (pkt : Packet) (s : State) : Answer :=
  .next (s.collComes port.val pkt ckGo (fun s => s.lateColl port.val pkt) fun s c =>
    let s := s.answer port.val pkt stOk
    if c.phase = .held then s.runColl c.ring c.idx else s)

/-- YIELD (R329, R330). -/
def execCollYield (port : Fin 36) (pkt : Packet) (s : State) : Answer :=
  .next (s.collComes port.val pkt ckYield (fun s => s.unknownColl port.val pkt) fun s c =>
    let s := s.answer port.val pkt stOk
    match s.senderRank c port.val pkt with
    | some k =>
      if c.rank ≠ 0 then s
      else if c.goSent then s.sendKind c k ckGoSent akOther 0
      else
        let s := (s.modColl c.ring c.idx fun c => { c with helds := c.helds.filter fun h => h.1 != k }).sendKind c k ckYieldOk akOther 0
        if bit pkt.data8 0 then s.endColl c.ring c.idx stRwTimeout ccWait else s
    | none => s)

/-- YIELD_OK: the slots are free and the collective waits again, or it ends (R329, R330). -/
def execYieldOk (port : Fin 36) (pkt : Packet) (s : State) : Answer :=
  .next (s.collComes port.val pkt ckYieldOk (fun s => s.lateColl port.val pkt) fun s c =>
    let s := s.answer port.val pkt stOk
    match c.yield with
    | some true => s.endColl c.ring c.idx stRwTimeout ccWait
    | some false =>
      if c.phase = .held then
        (((s.modColl c.ring c.idx fun c => { c with phase := .waiting, yield := none }).collEvt 0 ceYield).collEvt 1 ceYield).yieldTo
          { c with phase := .waiting }
      else s
    | none => s)

/-- GO_SENT: the slots stay; after the expired YIELD the package proceeds (R329, R330). -/
def execGoSent (port : Fin 36) (pkt : Packet) (s : State) : Answer :=
  .next (s.collComes port.val pkt ckGoSent (fun s => s.lateColl port.val pkt) fun s c =>
    let s := s.answer port.val pkt stOk
    if c.yield = some true ∧ c.phase = .held then s.runColl c.ring c.idx
    else s.modColl c.ring c.idx fun c => { c with yield := none })

/-- The payload of a DATA packet has the CRC that it names (R341). -/
def payloadOk (p : Packet) : Bool := crc32c (payloadBytes p.payload) == p.data8.setWidth 32

/-- The chunk is one that the step of a ring brings here (R333). -/
def Coll.awaits (c : Coll) (p : Packet) : Bool :=
  let idx := p.offset.toNat
  let lvl := cfLevel p.coll
  let stp := cfStep p.coll
  let q := c.quad idx
  c.levels.contains lvl && decide (stp + 2 ≤ c.ext lvl) && cfDir p.coll == q % 2 && decide (idx < c.units * c.m) &&
    c.inSeg q lvl (c.recvSeg q lvl (cfPhase p.coll) stp) idx &&
    match p.payload with
    | .tile _ => cfPhase p.coll && idx % c.m == 0 && c.op != opReduceScatter
    | .wide _ => !cfPhase p.coll && c.reduces && c.wide lvl
    | .f32p _ => !cfPhase p.coll && c.reduces && !c.wide lvl
    | _ => false

/-- The contribution has been applied, or its chunk is complete (R344). -/
def Coll.applied (c : Coll) (p : Packet) : Bool :=
  let idx := p.offset.toNat
  let lvl := cfLevel p.coll
  c.fin.contains (finKey lvl (cfPhase p.coll) idx) || match c.slotAt lvl (cfPhase p.coll) idx with
    | some x => !cfPhase p.coll && (x.got == 3 || x.got.getLsbD (cfPart p.coll))
    | none => false

/-- Items of a ROWS packet, with their slots. -/
def Coll.itemsOf (c : Coll) (p : Packet) (l : List Row) : List (Nat × List Row) :=
  (List.range (fieldN p.mask 0 7)).map fun k => (p.offset.toNat + k, (l.drop (k * c.itemRows)).take c.itemRows)

/-- The rows of a ROWS packet are whole items for slots of the destination (R347, R348). -/
def Coll.rowsOk (c : Coll) (p : Packet) (l : List Row) : Bool :=
  let n := fieldN p.mask 0 7
  c.op == opDispatch && decide (1 ≤ n) && decide (l.length = n * c.itemRows) && decide (p.offset.toNat + n ≤ c.members * c.cap)

/-- A contribution that is new takes effect (R343, R344). One that no step of this group brings is discarded as one that is
no contribution (DESIGN CHOICE, log entry 38). -/
def State.dataComes (s : State) (port : Nat) (p : Packet) (c : Coll) : State :=
  let s := s.answer port p stOk
  let dup := s.collEvt (port / 18) ceDup
  let idx := p.offset.toNat
  let q := c.quad idx
  let lvl := cfLevel p.coll
  let stp := cfStep p.coll
  if !payloadOk p then s.endColl c.ring c.idx stCorrupt ccCrc
  else match p.payload with
    | .rows l =>
      if !c.rowsOk p l then s
      else
        let dp : Fin 4 := ⟨cfDpart p.coll % 4, by omega⟩
        let new := (c.itemsOf p l).filter fun e => !c.fin.contains (dp.val * 0x1000000 + e.1)
        if new.isEmpty then dup
        else new.foldl (fun s e => match s.findColl c.ring c.idx with
          | some c => s.landItem c dp e.1 e.2
          | none => s) s
    | .tile t => if !c.awaits p then s else if c.applied p then dup else s.takeTile c q lvl stp idx t.data
    | .wide _ | .f32p _ =>
      if !c.awaits p then s
      else if c.applied p then dup
      else s.takePartial c q lvl stp idx (cfPart p.coll) (payloadVals p.payload)
    | .none => s

/-- DATA. -/
def execCollData (port : Fin 36) (pkt : Packet) (s : State) : Answer :=
  .next (s.collComes port.val pkt ckData (fun s => s.lateColl port.val pkt) fun s c =>
    if c.phase = .waiting then s.lateColl port.val pkt
    else match s.findColl c.ring c.idx with
      | some c => s.dataComes port.val pkt c
      | none => s)

/-- CREDIT: chunk credits of a level and direction of the engine at which it arrives (R342). -/
def execCollCredit (port : Fin 36) (pkt : Packet) (s : State) : Answer :=
  .next (s.collComes port.val pkt ckCredit (fun s => s.lateColl port.val pkt) fun s c =>
    let k := (port.val / 18 * 2 + cfDir pkt.coll) * 4 + cfLevel pkt.coll
    (s.modColl c.ring c.idx fun c => { c with credits := mmod (fun _ => 0) c.credits k (· + fieldN pkt.data8 0 32) }).answer
      port.val pkt stOk)

/-- FIN (R350). -/
def execCollFin (port : Fin 36) (pkt : Packet) (s : State) : Answer :=
  .next (s.collComes port.val pkt ckFin (fun s => s.lateColl port.val pkt) fun s c =>
    let s := s.answer port.val pkt stOk
    match s.senderRank c port.val pkt with
    | some k =>
      let m := 4 * k + cfSpart pkt.coll
      s.modColl c.ring c.idx fun c => { c with fins := (c.fins.filter fun f => f.1 != m) ++ [(m, pkt.mask)] }
    | none => s)

/-- END (R353). -/
def execCollEnd (port : Fin 36) (pkt : Packet) (s : State) : Answer :=
  .next (s.collComes port.val pkt ckEnd (fun s => s.lateColl port.val pkt) fun s c =>
    (s.answer port.val pkt stOk).endColl c.ring c.idx pkt.status ccEnd)

/-! ## Rows whose end an engine may wait for -/

/-- SOURCE_SEND. -/
def execSourceSend (n : Nat) (s : State) : Answer := .next (s.sourceSend n).engines

/-- ACK. -/
def execAck (port : Fin 36) (pkt : Packet) (s : State) : Answer := .next (s.ackComes port.val pkt).engines

/-- NACK. -/
def execNack (port : Fin 36) (pkt : Packet) (s : State) : Answer := .next (s.nackComes port.val pkt).engines

/-- TILE_WRITE_CLOSE. -/
def execTileWriteClose (tile : BitVec 36) (s : State) : Answer := .next (s.closeWhole tile.toNat).engines

/-- PARTIAL_WRITE. -/
def execPartialWrite (tile : BitVec 36) (s : State) : Answer := .next (s.doPart tile.toNat).engines

end Sys2Proof.Machine
end

