-- ==== Sys2Proof/Machine/Dump.lean ====
section
/-! DEFINITION. The crash dump (Reset, recovery and redundancy, R463 to R467). -/

namespace Sys2Proof.Machine

/-- TRIGGER of Table 13.8. -/
def dtEscalation : Nat := 1
def dtDetector : Nat := 2
def dtRequest : Nat := 3
def dtPair : Nat := 4

/-- Units of a partition in the order of Table 13.7: the order column and the unit's index in its row. Order 6 holds two
units, so that a partition has the 141 units of Table 13.3 (DEDUCED, log entry 39). -/
def partUnit (u : Nat) : Nat × Nat :=
  if u < 1 then (3, u) else if u < 9 then (4, u - 1) else if u < 11 then (5, u - 9) else if u < 13 then (6, u - 11)
  else if u < 25 then (7, u - 13) else if u < 133 then (8, u - 25) else (9, u - 133)

/-- Units of a dump: of one partition, or of the package. -/
def dumpUnits (part : Option (Fin 4)) : Nat := if part.isSome then 141 else 567

/-- A unit of a dump: order, partition, index (R465). -/
def dumpUnit (part : Option (Fin 4)) (u : Nat) : Nat × Nat × Nat :=
  match part with
  | some p => ((partUnit u).1, p.val, (partUnit u).2)
  | none =>
    if u = 0 then (1, 0, 0) else if u < 3 then (2, 0, u - 1)
    else ((partUnit ((u - 3) % 141)).1, (u - 3) / 141, (partUnit ((u - 3) % 141)).2)

/-- The logical core that a physical core of a cluster is bound to. -/
def State.logicalOf (s : State) (p : Fin 4) (j : Nat) : Option CoreAddr :=
  match (coresOf p).find? fun c => s.phys c == some (p.val * 108 + j) with
  | some c => some c
  | none => none

/-- ID of a record: packed core address and physical index, stack, or die (DESIGN CHOICE, log entry 39). -/
def State.dumpId (s : State) (u : Nat × Nat × Nat) : Nat :=
  if u.1 = 8 then
    (match s.logicalOf ⟨u.2.1 % 4, by omega⟩ u.2.2 with | some c => (packCore c).toNat | none => u.2.1 * 128 + u.2.2 / 9 * 8) +
      u.2.2 % 9 * 512
  else if u.1 = 2 then u.2.2 else u.2.1 * 128 + u.2.2

/-- The unit's payload takes in the k registers: a core in FAULT. -/
def State.dumpKregs (s : State) (u : Nat × Nat × Nat) : Bool :=
  decide (u.1 = 8) && match s.logicalOf ⟨u.2.1 % 4, by omega⟩ u.2.2 with | some c => (s.core c).st == .fault | none => false

/-- Tiles of a region. -/
def dumpTiles : Nat := 65536

/-- Writes a tile of the dump: a whole-tile write with OWNER.MGT = 1 (R464). The dump engine writes while domains are fenced
and takes one step for a tile (DESIGN CHOICE, log entry 39). -/
def State.dumpTile (s : State) (base n : Nat) (data : TileData) : State :=
  let tile := base / 4096 + n
  if s.failedStack (placeOf (tile * 4096)) then s
  else
    let img : TileImg := ⟨data, freshRec data 0 fmtUntyped 0 s.ownerMgt noAnchor⟩
    ({ s with mem := s.mem.pocWhole tile img }).countRows (placeOf (tile * 4096)) true 64

def State.dumpTilesAt (s : State) (base n : Nat) : List TileData → State
  | [] => s
  | t :: r => (s.dumpTile base n t).dumpTilesAt base (n + 1) r

/-- The 64-byte header of a record (R466), as a number. -/
def recordHeader (order status flags len : Nat) (ftc : Word) (id : Nat) : Nat :=
  order + status * 2 ^ 16 + flags * 2 ^ 24 + len * 2 ^ 32 + ftc.toNat * 2 ^ 64 + id * 2 ^ 128

/-- `n` tiles of a number. -/
def tilesOf (v n : Nat) : List TileData := (List.range n).map fun i => BitVec.ofNat 32768 (v >>> (32768 * i))

/-- The record of the unit now read: its tiles, and whether it did not fit. Room for a header of each later unit is kept
(DEDUCED, log entry 39). -/
def State.record (s : State) (d : Dump) (status : Nat) (payload : List TileData) : List TileData × Bool :=
  let u := dumpUnit d.part d.unit
  let room := dumpTiles - 1 - d.tiles.length - (dumpUnits d.part - d.unit - 1)
  let want := if payload.isEmpty then 1 else payload.length + 1
  let fits := !d.trunc && decide (want ≤ room)
  let n := if fits then want else if d.trunc then 1 else room
  let len := if fits then 4096 * payload.length else if d.trunc then 0 else 4096 * room - 64
  let flags := (if fits then 0 else 1) + (if s.dumpKregs u && status == 0 then 2 else 0)
  let head := recordHeader u.1 status flags len s.ftc (s.dumpId u)
  let body := if len = 0 then 0 else packNat 32768 (payload.map BitVec.toNat) % 2 ^ (8 * len)
  (tilesOf (head + body * 2 ^ 512) n, !fits)

/-- The header of the region (Table 13.8). -/
def State.dumpHeader (s : State) (d : Dump) (seq : Nat) : TileData :=
  let len := 4096 * (1 + d.tiles.length)
  let digest := sha384 (d.tiles.flatMap fun t => bytesOf 32768 t 4096)
  let dom := if d.part.isSome then 3 else 5
  let part := match d.part with | some p => p.val | none => 255
  BitVec.ofNat 32768 (0x4B39444D + 1 * 2 ^ 32 + d.trigger * 2 ^ 48 + dom * 2 ^ 56 + part * 2 ^ 64 + d.recs * 2 ^ 96 +
    d.started.toNat * 2 ^ 128 + s.ftc.toNat * 2 ^ 192 + fieldN (s.reg rObsPtc) 0 32 * 2 ^ 256 + seq * 2 ^ 288 +
    len * 2 ^ 320 + digest.toNat * 2 ^ 384)

/-- Resets that wait for a dump go on to DRAIN; their budgets leave out its time. -/
def State.dumpOver (s : State) (began : Nat) : State :=
  let waiting := s.resets.filter fun j => j.step == 2
  let upd := fun (j : ResetJob) => { j with step := 3, dumpTime := j.dumpTime + (s.now - max began j.start) }
  let s := { s with resets := updWhere (fun j => j.step == 2) upd s.resets }
  waiting.foldl (fun s j => s.showStep j.dom 3) s

/-- The dump ends: its header is written, HELD is set, and the event is reported (R467). -/
def State.endDump (s : State) (d : Dump) : State :=
  let seq := (s.fld rMgtDumpStat 0 32 + 1) % 2 ^ 32
  let s := s.dumpTile d.base 0 (s.dumpHeader d seq)
  let s := s.modReg rMgtDumpStat fun x =>
    setField (setField (setField (setField x 63 1 1) 62 1 (if d.alt then 1 else 0)) 48 8 d.trigger) 0 32 seq
  (({ s with sys := { s.sys with dump := none } }).event 9 seq).dumpOver d.began

/-- One unit has been read, or has not answered: its record is written, and the engine goes on to the next unit. -/
def State.dumpOne (s : State) (d : Dump) (status : Nat) (payload : List TileData) : State :=
  let r := s.record d status payload
  let s := s.dumpTilesAt d.base (1 + d.tiles.length) r.1
  let d := { d with tiles := d.tiles ++ r.1, recs := d.recs + 1, unit := d.unit + 1, unitAt := s.now, trunc := d.trunc || r.2 }
  if d.unit < dumpUnits d.part then { s with sys := { s.sys with dump := some d } } else s.endDump d

/-- The region of a dump: ALT where the domain dumped takes in the partition of BASE (R467). -/
def State.dumpAlt (s : State) (part : Option (Fin 4)) : Bool :=
  match part with
  | none => true
  | some p => (placeOf (s.fld rMgtDumpCfg 37 27 * 0x200000)).partition == some p

/-- A dump is taken, unless one is held or is being written: then it is skipped and counted (R467). -/
def State.startDump (s : State) (trigger : Nat) (part : Option (Fin 4)) : State :=
  if s.rbit rMgtDumpStat 63 || s.sys.dump.isSome then s.bump rMgtDumpStat 32 8
  else
    let alt := s.dumpAlt part
    let base := (if alt then s.fld rMgtDumpCfg 10 27 else s.fld rMgtDumpCfg 37 27) * 0x200000
    let d : Dump :=
      { trigger := trigger, part := part, base := base, alt := alt, unit := 0, tiles := [], recs := 0, started := s.ftc, unitAt := s.now
        trunc := false, began := s.now }
    { s with sys := { s.sys with dump := some d } }

/-- A region of 256 MiB in an HBM tile area. -/
def regionOk (a : Nat) : Bool :=
  match placeOf a with
  | .hbm p st => placeOf (a + 0xFFFFFFF) == .hbm p st
  | _ => false

/-- A write of MGT_DUMP_CFG, without effect where it breaks R467: both regions are 256 MiB ranges of HBM tile areas, in
different partitions. -/
def State.dumpCfgWrite (s : State) (v : Word) : State :=
  let base := fieldN v 37 27 * 0x200000
  let alt := fieldN v 10 27 * 0x200000
  if regionOk base && regionOk alt && (placeOf base).partition != (placeOf alt).partition then s.mergeReg rMgtDumpCfg v else s

/-- DUMP_UNIT_READ. -/
def execDumpUnitRead (payload : List TileData) (s : State) : Answer :=
  .next (match s.sys.dump with | some d => s.dumpOne d 0 payload | none => s)

/-- DUMP_UNIT_TIMEOUT: the unit has been silent for 1 ms. -/
def execDumpUnitTimeout (s : State) : Answer :=
  .next (match s.sys.dump with
    | some d => if d.unitAt + 1000000 ≤ s.now then s.dumpOne d 0x0E [] else s
    | none => s)

end Sys2Proof.Machine
end

