-- ==== Sys2Proof/Machine/Reset.lean ====
section
/-! DEFINITION. Resets of domains: their steps, escalation, and what each domain loses (Reset, recovery and redundancy, R445 to
R456, R477, R549). -/

namespace Sys2Proof.Machine

/-! ## Rings that stop (R361, R381) -/

/-- Stops every halted ring of which no command is started. -/
def State.stopRings (s : State) : State :=
  let idle := fun (r : Nat) => s.host.cmds.all fun c => c.ring != r
  let ended := s.host.halted.filter idle
  let s := ended.foldl (fun s r => s.setRBit (rRingCfg r) 63 false) s
  { s with host := { s.host with halted := s.host.halted.filter fun r => !ended.contains r } }

/-- Rings start no further command, and stop. -/
def State.haltRings (s : State) (l : List Nat) : State :=
  { s with host := { s.host with halted := s.host.halted ++ l.filter fun r => s.rbit (rRingCfg r) 63 && !s.host.halted.contains r } }

/-- The rings of a context. -/
def ctxRings (n : Nat) : List Nat := [4 * n, 4 * n + 1, 4 * n + 2, 4 * n + 3]

/-! ## FENCE -/

/-- Fences the cores of a domain: their launches end, and every core but one in FAULT enters FENCED. -/
def State.fenceCores (s : State) (l : List CoreAddr) : State :=
  let s := l.foldl (fun s c => s.endLaunchOf c stFenced) s
  (l.foldl (fun s c => s.modCore c fun k =>
    if k.st == .fault then k else { k with st := .fenced, failFence := false, fill := false }) s).settle

/-- Ends the collectives that satisfy `f` with FENCED. -/
def State.fenceColls (s : State) (f : Coll → Bool) : State :=
  (s.colls.filter f).foldl (fun s c => s.endColl c.ring c.idx stFenced ccFence) s

def ctxDisabled : Nat := 0
def ctxActive : Nat := 1
def ctxFencing : Nat := 2
def ctxResetting : Nat := 3

def State.setCtxState (s : State) (n st : Nat) : State := s.setFld (rCtxStat n) 60 3 st

/-- FENCE of a domain (Table 13.2; R381, R449). -/
def State.fenceDomain (s : State) (d : Domain) : State :=
  match d with
  | .core c => s.fenceCores [c]
  | .cluster p c => s.fenceCores (coresIn p c)
  | .partition p => ((s.setRBit rMgtBoot (52 + p.val) false).fenceColls fun c => c.has p.val).fenceCores (coresOf p)
  | .partEngine _ _ => s
  | .dieEngine _ u => if u = 0 then s.fenceColls fun _ => true else s
  | .package =>
    ((s.fenceColls fun _ => true).haltRings (List.range 64)).fenceCores allCores
  | .context n =>
    let s := (s.launches.filter fun l => l.ctx == n).foldl (fun s l => s.endLaunch l stFenced) s
    ((s.settle.fenceColls fun c => c.ctx == n).haltRings (ctxRings n.val)).setCtxState n.val ctxFencing

/-! ## What belongs to a domain -/

def State.domCores (s : State) (d : Domain) : List CoreAddr :=
  match d with
  | .core c => [c]
  | .cluster p c => coresIn p c
  | .partition p => coresOf p
  | .package => allCores
  | .context n => (s.launches.filter fun l => l.ctx == n).flatMap Launch.locals
  | _ => []

def Requester.isColl : Requester → Bool
  | .coll _ _ _ _ => true
  | .relay t _ _ => t.isColl
  | .relayOut t _ _ _ => t.isColl
  | _ => false

/-- A request of issuing domain `dom` is one of the domain's. The requests of an engine carry the generation of the partition
or of the package it serves, or, for a Collective Engine, of a context (R451). -/
def State.reqIn (s : State) (d : Domain) (dom : Nat) (w : Requester) : Bool :=
  match d with
  | .package => true
  | .context n => dom == domContext n.val || (s.domCores d).any fun c => coreIdx c == dom
  | .partEngine p _ => dom == domPartition p
  | .dieEngine _ u => dom == domPackage || (u == 0 && w.isColl)
  | .partition p => dom == domPartition p || (decide (dom < 384) && (coreOfIdx dom).p == p)
  | .cluster p c => decide (dom < 384) && (coreOfIdx dom).p == p && (coreOfIdx dom).c == c
  | .core c => dom == coreIdx c

/-- The place lies in the domain. -/
def placeIn (d : Domain) (pl : Place) : Bool :=
  match d with
  | .package => true
  | .partition p => pl.partition == some p
  | .partEngine p u => u != 1 && pl.stored && pl.partition == some p
  | .cluster p c => match pl with | .cluster q k => q == p && k == c.val | .coreLocal x _ => x.p == p && x.c == c | _ => false
  | .core c => match pl with | .coreLocal x _ => x == c | _ => false
  | _ => false

/-- The request is one of the failed core and not of the spare that replays in its place (R454; DEDUCED, log entry 41). -/
def State.ofFailed (s : State) : Requester → Bool
  | .mover i id _ _ => (s.flight i id).isNone
  | .strel i id => (s.flight i id).isNone
  | .load i id => (s.flight i id).isNone
  | .relay t _ _ => s.ofFailed t
  | .relayOut t _ _ _ => s.ofFailed t
  | _ => true

/-- The request is cut by the reset. -/
def State.cuts (s : State) (j : ResetJob) (dom : Nat) (w : Requester) : Bool :=
  s.reqIn j.dom dom w && (!j.fail || s.ofFailed w)

/-- A started command belongs to the domain. -/
def cmdIn (d : Domain) (c : Cmd) : Bool :=
  match d with
  | .package => true
  | .context n => c.ring / 4 == n.val
  | _ => false

/-- Something of the domain is outstanding: DRAIN waits for it. -/
def State.outstanding (s : State) (j : ResetJob) : Bool :=
  (s.fab.src.any fun r => s.cuts j r.dom r.who) || (s.fab.out.any fun o => !o.gone && s.cuts j o.dom o.who) ||
    (s.mem.ops.any fun o => s.cuts j o.dom o.who || placeIn j.dom (placeOf (o.tile * 4096))) ||
    s.host.cmds.any fun c => cmdIn j.dom c && !c.done

/-! ## CUT and GEN -/

/-- Ends the operation of a request that is cut; what a failed core waited for concerns no one. -/
def State.cutTo (s : State) (j : ResetJob) (w : Requester) : State :=
  match w with
  | .note _ _ _ => if j.fail then s else s.failTo stFenced w
  | _ => s.failTo stFenced w

/-- Closes an open whole-tile write with POISON (R223). -/
def Mem.poisonClose (m : Mem) (tile : Nat) (img : TileImg) (gen : BitVec 32) : Mem :=
  m.setPlainRec tile (summed (withPoison { vetted img.tcr with code := (m.plainRec tile).code, gen := gen }))

/-- Ends an operation at a point of coherence: one inside the domain is answered FENCED; one of the domain elsewhere is
abandoned, and goes on where it is. -/
def State.cutOp (j : ResetJob) (s : State) (o : PocOp) : State :=
  if placeIn j.dom (placeOf (o.tile * 4096)) then
    let m := match o.kind with
      | .whole img g _ => if o.opened && !s.failedStack (placeOf (o.tile * 4096)) then s.mem.poisonClose o.tile img g else s.mem
      | _ => s.mem
    ({ s with mem := m.dropOp o.id }).cutTo j o.who
  else if s.cuts j o.dom o.who then ({ s with mem := s.mem.modOp o.id fun o => { o with who := .posted } }).cutTo j o.who
  else s

/-- Ends a request that waits at its source. -/
def State.cutSrc (j : ResetJob) (s : State) (r : SrcReq) : State :=
  let s := if r.pkt.rty then s.streamAnswered r.pkt.bank r.pkt false else s
  s.cutTo j r.who

/-- The generation of the issuing domain changes with the reset of the domain. -/
def bumps (d : Domain) (dom : Nat) : Bool :=
  match d with
  | .package => true
  | .context n => dom == domContext n.val
  | .partEngine p _ => dom == domPartition p
  | .dieEngine _ _ => dom == domPackage
  | .partition p => dom == domPartition p || (decide (dom < 384) && (coreOfIdx dom).p == p)
  | .cluster p c => decide (dom < 384) && (coreOfIdx dom).p == p && (coreOfIdx dom).c == c
  | .core c => dom == coreIdx c

/-- Abandons a fabric request: it counts in TERM (R299), and its answer is late where its generation changes. -/
def State.cutOut (j : ResetJob) (s : State) (o : OutReq) : State :=
  let s := (s.addTerm o.bank o.left).streamAnswered o.bank o.pkt false
  let upd := fun (x : OutReq) => { x with gone := true }
  let out := if bumps j.dom o.dom then updWhere (fun x => x.tag == o.tag) upd s.fab.out else s.fab.out.filter fun x => x.tag != o.tag
  ({ s with fab := { s.fab with out := out } }).cutTo j o.who

/-- CUT: everything outstanding ends. -/
def State.cut (s : State) (j : ResetJob) : State :=
  let src := s.fab.src.filter fun r => s.cuts j r.dom r.who
  let out := s.fab.out.filter fun o => !o.gone && s.cuts j o.dom o.who
  let s := { s with fab := { s.fab with src := s.fab.src.filter fun r => !src.contains r } }
  let s := src.foldl (State.cutSrc j) s
  let s := out.foldl (State.cutOut j) s
  let s := s.mem.ops.foldl (State.cutOp j) s
  let s := if j.fail then s else (s.domCores j.dom).foldl (fun s c => s.modCore c fun k => { k with flights := [], pend := none }) s
  let upd := fun (c : Cmd) => if c.done then c else { c.finish stFenced with left := 0 }
  ({ s with host := { s.host with cmds := updWhere (cmdIn j.dom) upd s.host.cmds } }).settle

/-- The generations that a reset increments (R450, Table 13.1). -/
def domGens (d : Domain) : List Nat :=
  match d with
  | .core c => [coreIdx c]
  | .cluster p c => (coresIn p c).map coreIdx
  | .partition p => domPartition p :: (coresOf p).map coreIdx
  | .partEngine p _ => [domPartition p]
  | .dieEngine _ _ => [domPackage]
  | .context n => [domContext n.val]
  | .package => List.range 388 ++ (List.range 17).map (400 + ·)

/-- The requests of a spare that replays go on under the new generation (DEDUCED, log entry 41). -/
def State.retag (s : State) (j : ResetJob) : State :=
  if j.fail then
    let upd := fun (r : SrcReq) => { r with pkt := { r.pkt with rgen := s.gen r.dom } }
    { s with fab := { s.fab with src := updWhere (fun r => s.reqIn j.dom r.dom r.who) upd s.fab.src } }
  else s

def State.modJob (s : State) (d : Domain) (f : ResetJob → ResetJob) : State :=
  { s with resets := updWhere (fun j => j.dom == d) f s.resets }

def State.dropJob (s : State) (d : Domain) : State := { s with resets := s.resets.filter fun j => j.dom != d }

def State.jobOf (s : State) (d : Domain) : Option ResetJob := s.resets.find? fun j => j.dom == d

/-- CUT and GEN follow DRAIN at once, and RESET begins. -/
def State.cutAndGen (s : State) (j : ResetJob) : State :=
  let s := (domGens j.dom).foldl State.bumpGen (s.cut j)
  let s := (s.retag j).stopRings
  let s := match j.dom with | .context n => s.setCtxState n.val ctxResetting | _ => s
  (s.modJob j.dom fun j => { j with step := 6 }).showStep j.dom 6

/-! ## RESET: what a domain loses (Table 13.4) -/

/-- A core after reset of its units, still fenced; its operations go on being numbered. -/
def Core.cleared (k : Core) : Core := { Core.reset with st := .fenced, nextId := k.nextId }

def State.clearCores (s : State) (l : List CoreAddr) : State := l.foldl (fun s c => s.modCore c Core.cleared) s

/-- Span-entry records, ledgers and tallies are cleared (R455). -/
def State.clearStores (s : State) (l : List CoreAddr) : State := l.foldl (fun s c => s.setStore c .reset) s

/-- Registers of a partition that a partition reset clears: MEM but for its roots, HBM_ECC, the fault log and SCRUB_STAT
(R232; the rest is DESIGN CHOICE, log entry 42). -/
def partRegs (p : Fin 4) : List Nat :=
  [rPtInv p, rXlateErr p, rFlogPtr p, rScrubStat p] ++ (List.range 6).map (rHbmEcc p) ++ (List.range 32).map (rFlogA p) ++
    (List.range 32).map (rFlogB p)

def State.resetRegs (s : State) (l : List Nat) : State := l.foldl (fun s a => s.setReg a (resetOf a)) s

/-- Sets STATE of every stack of a partition that has not failed. -/
def State.setStacks (s : State) (p : Fin 4) (st : Nat) : State :=
  (List.range 6).foldl (fun s n => if s.fld (rHbmStat p n) 0 4 = 4 then s else s.setFld (rHbmStat p n) 0 4 st) s

/-- Clusters of a partition, whose known-answer runs are to be repeated. -/
def State.forgetRuns (s : State) (p : Fin 4) : State :=
  { s with sys := { s.sys with boot := { s.sys.boot with known := s.sys.boot.known.filter fun k => k / 12 != p.val } } }

/-- The application cores of a partition (Table 13.1). -/
def State.resetApps (s : State) (p : Fin 4) : State :=
  (List.range 8).foldl (fun s a => s.setApp ⟨p, ⟨a % 8, Nat.mod_lt _ (by decide)⟩⟩ .reset) s

/-- The units of a partition. Its stacks are in self-refresh. -/
def State.resetPart (s : State) (p : Fin 4) : State :=
  (((((((s.resetApps p).clearCores (coresOf p)).clearStores (coresOf p)).modPart p fun x => { x with tlb := [], scrubTorn := [] }).resetRegs
    (partRegs p)).setStacks p 3).forgetRuns p)

/-- The register survives a package reset (Table 13.4): FAB and LNK, the page-table roots, the core maps, fabric time, the
phase. -/
def keptReg (a : Nat) : Bool :=
  (decide (0xC000000 ≤ a ∧ a < 0xE000000)) || (decide (0x9000000 ≤ a ∧ a < 0xA000000) && decide (a % 0x400000 < 0x80)) ||
    decide (0xF000000 ≤ a) || a == rMgtUpdStat || a == rObsSync || a == rObsPtc || a == rMgtBoot || (decide (0xA000000 ≤ a ∧ a < 0xB000000) && a % 0x40 == 0) ||
    (decide (rMgtInv 0 ≤ a ∧ a < rMgtInv 512))

/-- A rail's register after a package reset: only STATE is left, in which a fault of AVSBus is over (R390, log entry 42). -/
def railReg (x : Word) : Word := BitVec.ofNat 64 (if fieldN x 0 4 = 3 then 1 else fieldN x 0 4)

/-- A register after a package reset: sticky bits and those of Table 13.4 stay (R12, R456). -/
def packageReg (a : Nat) (x : Word) : Word :=
  if keptReg a then x
  else if rPwrRail 0 ≤ a ∧ a < rPwrRail 12 then railReg x
  else
    let st := match regRow a with | some r => r.sticky | none => 0
    (x &&& st) ||| (resetOf a &&& ~~~st)

/-- The units of the package. -/
def State.resetPackage (s : State) : State :=
  let s := s.regs.foldl (fun t e => t.setReg e.1 (packageReg e.1 (s.reg e.1))) s
  let s := allParts.foldl State.resetPart s
  { s with
    colls := [], launches := [], groups := [], barNet := []
    host := { HostSt.reset with tables := s.host.tables, portsHeld := s.host.portsHeld }
    sys := { s.sys with notices := [], dump := none, pair := .reset, trace := [], bst := ⟨[], 0, 0⟩, gov := { s.sys.gov with peaks := [], next := none, coolAt := none } } }

/-- The units of an engine of an I/O die. -/
def State.resetDie (s : State) (d : Fin 2) (u : Nat) : State :=
  if u = 1 then s.resetRegs [rHstPcie d, rHstHerr d, rHstAper d] else if u = 2 then s.resetRegs [rHstEth d] else s

/-- Every unit of the domain has been reset. -/
def State.resetUnits (s : State) (j : ResetJob) : State :=
  match j.dom with
  | .core c => if j.fail && (s.phys c).isSome then s else s.clearCores [c]
  | .cluster p c => (s.clearCores (coresIn p c)).clearStores (coresIn p c)
  | .partition p => s.resetPart p
  | .partEngine _ _ => s
  | .dieEngine d u => s.resetDie d u
  | .package => s.resetPackage
  | .context n => s.clearCores (allCores.filter fun c => (s.core c).ctx == n.val && (s.core c).st == .fenced)

/-- Reports RESET_DONE. -/
def State.resetDone (s : State) (d : Domain) (inService : Bool) : State :=
  s.event 3 (resetKind d + resetTarget d * 8 + if inService then 4096 else 0)

/-! ## RESTORE -/

/-- RST_STAT at the end of a reset: ELAPSED, and BUSY for another that runs in the partition. -/
def State.endStat (s : State) (j : ResetJob) : State :=
  match domPart j.dom with
  | none => s
  | some p =>
    let us := (s.now - j.start - j.dumpTime) / 1000
    let s := s.modReg (rRstStat p) fun x => setField (setField (setField x 63 1 0) 56 4 0) 0 32 us
    match s.resets.find? fun x => domPart x.dom == some p with
    | some x => s.showStep x.dom x.step
    | none => s

/-- The cores of a domain return to STOPPED. -/
def State.stopCores (s : State) (l : List CoreAddr) : State :=
  l.foldl (fun s c => s.modCore c fun k => if k.st == .fenced then { k with st := .stopped } else k) s

/-- RESTORE may end: the known-answer runs of a partition are done; the commands of a context have completed. -/
def State.mayRestore (s : State) (d : Domain) : Bool :=
  match d with
  | .partition p => (List.range 12).all fun c => s.sys.boot.known.contains (p.val * 12 + c)
  | .context n => s.host.cmds.all fun c => c.ring / 4 != n.val
  | _ => true

/-- MGT_BOOT at the start of a phase. -/
def State.setPhase (s : State) (ph cause : Nat) : State :=
  s.modReg rMgtBoot fun x => setField (setField x 60 4 ph) 56 4 cause

/-- The domain is in service. A package goes through its phases again, from POR where a rail is out of range, and reports at READY
(R418, R423, R549). -/
def State.restored (s : State) (j : ResetJob) : State :=
  match j.dom with
  | .core c => if j.fail && (s.phys c).isSome then s else s.stopCores [c]
  | .cluster p c => s.stopCores (coresIn p c)
  | .partition p => ((s.stopCores (coresOf p)).setStacks p 2).setRBit rMgtBoot (52 + p.val) true
  | .context n => s.setCtxState n.val (if s.rbit (rCtxStat n.val) 63 then ctxActive else ctxDisabled)
  | .package =>
    let held := s.sys.boot.lost.isEmpty
    let s := (s.stopCores allCores).setPhase (if held then 1 else 0) 0
    { s with sys := { s.sys with boot := { s.sys.boot with
        verified := false, due := true, porAt := s.now, inited := s.sys.boot.inited && held } } }
  | _ => s

/-- RESTORE has ended. -/
def State.endReset (s : State) (j : ResetJob) : State :=
  let s := ((s.restored j).dropJob j.dom).endStat j
  match j.dom with
  | .package => s
  | d => s.resetDone d true

/-! ## Starting a reset (R448, R463) -/

/-- A reset takes a dump, of its partition or of the package, unless the dump is skipped. -/
def State.askDump (s : State) (d : Domain) (trigger : Nat) : State :=
  let s := s.modJob d fun j => { j with dump := true }
  if s.rbit rMgtDumpStat 63 || s.sys.dump.isSome then s.startDump trigger (domPart d)
  else (((s.startDump trigger (domPart d)).modJob d fun j => { j with step := 2 })).showStep d 2

/-- Starts the reset of a domain, unless one that contains it runs; resets inside it are taken over. -/
def State.startReset (s : State) (d : Domain) (hold : Bool) (dump : Option Nat) : State :=
  if s.resetting fun e => domWithin d e then s
  else
    let s := { s with resets := s.resets.filter fun j => !domWithin j.dom d }
    let s := (s.fenceDomain d).addReset d false hold
    match dump with
    | some t => s.askDump d t
    | none => s

/-- Starts a package reset with its CAUSE (Table 13.13). -/
def State.startPackage (s : State) (cause : Nat) (dump : Option Nat) : State :=
  if s.resetting fun e => domWithin .package e then s
  else ((s.bump rMgtRst 32 16).setFld rMgtRst 48 8 cause).startReset .package false dump

/-- Every core and engine that still holds work of a context (Table 13.1). -/
def State.contextWork (s : State) (n : Fin 16) : List Domain :=
  ((allCores.filter fun c => (s.core c).ctx == n.val && !((s.core c).flights.isEmpty && (s.core c).launch.isNone)).map Domain.core) ++
    (if s.colls.any fun c => c.ctx == n then [.dieEngine 0 0, .dieEngine 1 0] else [])

/-- The domain that is reset when a reset fails (Table 13.1). -/
def State.escalate (s : State) (d : Domain) : State :=
  match d with
  | .context n => (s.contextWork n).foldl (fun s e => s.startReset e false none) s
  | .core c => s.startReset (.partition c.p) false (some dtEscalation)
  | .cluster p _ | .partEngine p _ => s.startReset (.partition p) false (some dtEscalation)
  | .partition _ | .dieEngine _ _ => s.startPackage 3 (some dtEscalation)
  | .package => s.event 10 0

/-- A reset has failed: ESCALATED is reported, and the larger domain is reset (R447). A failed package reset asks for a power
cycle. A context has commands of its own to end, so its reset stands at RESTORE until they have (log entry 64). -/
def State.failReset (s : State) (j : ResetJob) : State :=
  let s := s.event 4 (resetKind j.dom + resetTarget j.dom * 8)
  let s := match domPart j.dom with | some p => s.bump (rRstStat p) 32 8 | none => s
  match j.dom with
  | .package => ((s.modJob .package fun j => { j with held := true }).setRBit rMgtRst 62 true).escalate .package
  | .context n => (s.modJob (.context n) fun j => { j with step := 7, held := true }).escalate (.context n)
  | d => (s.dropJob d).escalate d

/-! ## Rows -/

/-- The reset's DRAIN is over. -/
def State.drained (s : State) (d : Domain) (f : ResetJob → Bool) : State :=
  match s.jobOf d with
  | some j => if j.step = 3 ∧ f j = true then s.cutAndGen j else s
  | none => s

/-- DRAIN_END. -/
def execDrainEnd (d : Domain) (s : State) : Answer := .next (s.drained d fun j => !s.outstanding j)

/-- DRAIN_TIMEOUT: half the budget has passed. -/
def execDrainTimeout (d : Domain) (s : State) : Answer :=
  .next (s.drained d fun j => decide (j.start + j.dumpTime + domBudget d / 2 ≤ s.now))

/-- RESET_ACK: every unit has acknowledged. A partition held stays at RESET (R449). -/
def execResetAck (d : Domain) (s : State) : Answer :=
  .next (match s.jobOf d with
    | some j =>
      if j.step = 6 ∧ j.held = false then
        let s := s.resetUnits j
        if j.hold then (s.modJob d fun j => { j with held := true }).resetDone d false
        else (s.modJob d fun j => { j with step := 7 }).showStep d 7
      else s
    | none => s)

/-- RESTORE_END. -/
def execRestoreEnd (d : Domain) (s : State) : Answer :=
  .next (match s.jobOf d with
    | some j => if j.step = 7 ∧ s.mayRestore d = true then s.endReset j else s
    | none => s)

/-- RESET_BUDGET_EXPIRY. -/
def execResetBudgetExpiry (d : Domain) (s : State) : Answer :=
  .next (match s.jobOf d with
    | some j =>
      if j.held = false ∧ j.step ≠ 2 ∧ j.start + j.dumpTime + domBudget d ≤ s.now then s.failReset j else s
    | none => s)

/-- ENGINE_STOPS_ANSWERING (R445). -/
def execEngineStopsAnswering (d : Domain) (s : State) : Answer :=
  .next (match d with
    | .partEngine _ _ | .dieEngine _ _ => s.startReset d false none
    | _ => s)

/-- The partition is held (R449). -/
def State.heldPart (s : State) (p : Fin 4) : Bool := s.resets.any fun j => j.dom == .partition p && j.held && j.hold

/-- A held partition runs RESTORE; its budget begins again (DESIGN CHOICE, log entry 43). -/
def State.unhold (s : State) (p : Fin 4) : State :=
  (s.modJob (.partition p) fun j => { j with hold := false, held := false, step := 7, start := s.now, dumpTime := 0 }).showStep (.partition p) 7

/-- GO of RST_CTL. -/
def State.rstGo (s : State) (p : Fin 4) (v : Word) : State :=
  let dump := if bit v 57 then some dtRequest else none
  match fieldN v 60 3, unpackCore (field v 0 9) with
  | 1, some c =>
    if c.p ≠ p then s
    else if bit v 59 then
      let s := s.failCore c
      if bit v 57 && s.resets.any fun j => j.dom == .core c && j.fail && j.start == s.now && j.step == 3 then s.askDump (.core c) dtRequest
      else s
    else s.startReset (.core c) false dump
  | 2, some c => if c.p ≠ p then s else s.startReset (.cluster p c.c) false dump
  | 3, _ => s.startReset (.partition p) (bit v 58) dump
  | _, _ => s

/-- A write of RST_CTL (R477). -/
def State.rstWrite (s : State) (p : Fin 4) (v : Word) : State :=
  if s.rbit (rRstStat p) 63 then
    let old := s.reg (rRstCtl p)
    let rw := fb 62 57 ||| fb 8 0
    if s.heldPart p && !bit v 63 && bit old 58 && (v &&& rw) == (setBit old 58 false &&& rw) && !(s.part p).fenced &&
        !(s.part p).railLost then
      (s.setRBit (rRstCtl p) 58 false).unhold p
    else s
  else if bit v 63 && (fieldN v 60 3 == 1 || fieldN v 60 3 == 2) && fieldN v 7 2 != p.val then s
  else
    let s := s.mergeReg (rRstCtl p) v
    if bit v 63 then s.rstGo p v else s

/-- RST_CORE. -/
def execRstCore (p : Fin 4) (src : RegSource) (v : Word) (s : State) : Answer :=
  .next (s.onWrite src (rRstCtl p) fun s => s.rstWrite p v)

/-- RST_CLUSTER. -/
def execRstCluster (p : Fin 4) (src : RegSource) (v : Word) (s : State) : Answer :=
  .next (s.onWrite src (rRstCtl p) fun s => s.rstWrite p v)

/-- RST_PARTITION. -/
def execRstPartition (p : Fin 4) (src : RegSource) (v : Word) (s : State) : Answer :=
  .next (s.onWrite src (rRstCtl p) fun s => s.rstWrite p v)

/-- HOLD_RELEASE. -/
def execHoldRelease (p : Fin 4) (src : RegSource) (v : Word) (s : State) : Answer :=
  .next (s.onWrite src (rRstCtl p) fun s => s.rstWrite p v)

/-- A write of MGT_RST. -/
def State.mgtRstWrite (s : State) (v : Word) : State := if bit v 63 then s.startPackage 1 none else s

/-- RESET. -/
def execPkgReset (src : RegSource) (v : Word) (s : State) : Answer := .next (s.onWrite src rMgtRst fun s => s.mgtRstWrite v)

end Sys2Proof.Machine
end

