-- ==== Sys2Proof/Machine/Recover.lean ====
section
/-! DEFINITION. Contexts that are disabled and function resets (Host links, commands and the control complex, R361, R381), the
wait-for detector, notices and peers (Reset, recovery and redundancy, R457 to R462). -/

namespace Sys2Proof.Machine

/-! ## Contexts -/

/-- A write of CTL_CTX_STAT_n (R381). -/
def State.ctxWrite (s : State) (n : Fin 16) (v : Word) : State :=
  let a := rCtxStat n.val
  if bit v 63 then (if s.fld a 60 3 = ctxDisabled then (s.setRBit a 63 true).setCtxState n.val ctxActive else s)
  else if s.rbit a 63 then (s.setRBit a 63 false).startReset (.context n) false none
  else s

/-- CONTEXT_DISABLE. -/
def execContextDisable (src : RegSource) (ctx : Fin 16) (v : Word) (s : State) : Answer :=
  .next (s.onWrite src (rCtxStat ctx.val) fun s => s.ctxWrite ctx v)

/-- VF_FLR: resets context n (R361). -/
def execVfFlr (port : Fin 2) (ctx : Fin 16) (s : State) : Answer :=
  .next (if s.pcieUp port then (s.bump (rCtxStat ctx.val) 0 16).startReset (.context ctx) false none else s)

/-- Ends the launches and collectives of rings with FENCED. -/
def State.endRings (s : State) (l : List Nat) : State :=
  let s := (s.launches.filter fun x => l.contains x.ring).foldl (fun s x => s.endLaunch x stFenced) s
  s.settle.fenceColls fun c => l.contains c.ring

/-- The rings in service whose SRC is a port. -/
def State.portRings (s : State) (port : Fin 2) : List Nat :=
  (List.range 64).filter fun r => s.rbit (rRingCfg r) 63 && s.fld (rRingCfg r) 60 2 == port.val

/-- PF_FLR: the rings of the port stop as a context reset stops them, and its HST fields but for the link's state are reset
(R361; log entry 44). -/
def execPfFlr (port : Fin 2) (s : State) : Answer :=
  .next (if s.pcieUp port then
    let l := s.portRings port
    (((s.endRings l).haltRings l).stopRings).resetRegs [rHstHerr port, rHstAper port]
  else s)

/-! ## The wait-for detector (R457 to R459) -/

def ascending (l : List Nat) : List Nat := l.foldl (fun a n => insertUp n a) []

/-- A persistent cycle is reported. -/
def State.hang (s : State) (p : Fin 4) (l : List Nat) : State :=
  let l := l.take 16
  let s := (List.range 16).foldl (fun s i => s.setReg (rRstWfdMem p i)
    (match l[i]? with | some q => setField (setField 0 63 1 1) 0 10 q | none => 0)) s
  let s := s.modReg (rRstWfd p) fun x =>
    bumpHold (setField (setField (setField x 61 1 1) 56 5 l.length) 0 32 s.ftc.toNat) 32 16
  let s := s.event 5 (p.val + l.length * 4 + l.headD 0 * 128)
  if s.rbit (rRstWfd p) 62 then s.startReset (.partition p) false (some dtDetector) else s

/-- CYCLE_REPORT: the queues of a cycle, of two or more. -/
def execCycleReport (p : Fin 4) (queues : List (BitVec 10)) (s : State) : Answer :=
  let l := ascending (queues.map BitVec.toNat)
  .next (if s.rbit (rRstWfd p) 63 && decide (2 ≤ l.length) then s.hang p l else s)

/-! ## Notices and peers (R461, R462) -/

/-- Sends a notice again, or counts it as lost once it has been sent again 100 times. -/
def State.retryNotice (s : State) (n : Notice) : State :=
  if n.sent ≤ 100 then
    let upd := fun (x : Notice) => { x with sent := x.sent + 1, last := s.now }
    ({ s with sys := { s.sys with notices := updWhere (fun x => x.seq == n.seq) upd s.sys.notices } }).sendNotice n
  else (s.noticeDone n.seq).bump rMgtEvtPtr 16 16

/-- NOTICE_RETRY. -/
def execNoticeRetry (seq : BitVec 16) (s : State) : Answer :=
  .next (match s.sys.notices.find? fun n => n.seq == seq && decide (n.last + 1000000 ≤ s.now) with
    | some n => s.retryNotice n
    | none => s)

/-- The slice of a context's source local endpoint, in the active bank. -/
def State.ctxSlice (s : State) (n : Nat) : Option Nat :=
  match s.srcLep n with
  | none => none
  | some l => (s.lepId s.bank l).map fun id => eSlice (s.ept 0 s.bank id.toNat)

/-- A write of MGT_PEER_FAIL. -/
def State.peerWrite (s : State) (v : Word) : State :=
  let s := s.mergeReg rMgtPeerFail v
  if bit v 63 then
    let slice := fieldN v 30 12
    let mine := fun (n : Fin 16) => s.ctxSlice n.val == some slice
    let ls := s.launches.filter fun l => mine l.ctx
    let cs := s.colls.filter fun c => mine c.ctx
    let s := (ls.foldl (fun s l => s.endLaunch l stFenced) s).settle
    let s := cs.foldl (fun s c => s.endColl c.ring c.idx stFenced ccFence) s
    s.setFld rMgtPeerFail 0 16 (ls.length + cs.length)
  else s

/-- PEER_FAIL. -/
def execPeerFail (src : RegSource) (v : Word) (s : State) : Answer := .next (s.onWrite src rMgtPeerFail fun s => s.peerWrite v)

end Sys2Proof.Machine
end

