-- ==== Sys2Proof/Machine/Ring.lean ====
section
/-! DEFINITION. Command rings: their registers, doorbells, completion records and the latch log (Host links, commands and the
control complex, R363 to R371; Self-test, counters and trace, R491). -/

namespace Sys2Proof.Machine

/-! ## Fields of a ring (Tables 10.16 to 10.18) -/

def State.ringEn (s : State) (r : Nat) : Bool := s.rbit (rRingCfg r) 63
def State.ringMgmt (s : State) (r : Nat) : Bool := s.rbit (rRingCfg r) 62
def State.ringSrc (s : State) (r : Nat) : Nat := s.fld (rRingCfg r) 60 2
def State.ringStopped (s : State) (r : Nat) : Bool := s.rbit (rRingCfg r) 59
def State.ringSize (s : State) (r : Nat) : Nat := 16 <<< s.fld (rRingCfg r) 52 4
def State.ringBase (s : State) (r : Nat) : Nat := s.fld (rRingCfg r) 12 36 * 4096
def State.cqBase (s : State) (r : Nat) : Nat := s.fld (rCqCfg r) 12 36 * 4096
def State.ringTail (s : State) (r : Nat) : BitVec 32 := BitVec.ofNat 32 (s.fld (rRingIdx r) 32 32)
def State.ringLow (s : State) (r : Nat) : BitVec 32 := BitVec.ofNat 32 (s.fld (rRingIdx r) 0 32)

/-- The index that the package reads next. -/
def State.ringNext (s : State) (r : Nat) : BitVec 32 := mget (fun _ => 0) s.host.ringNext r

def State.setRingNext (s : State) (r : Nat) (i : BitVec 32) : State :=
  { s with host := { s.host with ringNext := mput (fun _ => 0) s.host.ringNext r i } }

/-- The context of a ring. -/
def ringCtx (r : Nat) : Fin 16 := ⟨r / 4 % 16, Nat.mod_lt _ (by decide)⟩

/-- The partition that holds the descriptor ring, in which the command's addresses are translated (R548). -/
def State.ringPart (s : State) (r : Nat) : Fin 4 := ((placeOf (s.ringBase r)).partition).getD 0

/-- The started commands of a ring. -/
def State.ringCmds (s : State) (r : Nat) : List Cmd := s.host.cmds.filter fun c => c.ring == r

/-- Index `a` lies before `b`; indexes wrap modulo 2^32. -/
def idxBefore (a b : BitVec 32) : Bool := decide (1 ≤ (b - a).toNat ∧ (b - a).toNat < 0x80000000)

/-- The command of an index has completed. -/
def State.idxDone (s : State) (r : Nat) (i : BitVec 32) : Bool :=
  idxBefore i (s.ringLow r) || s.host.ringDone.contains (r, i)

/-! ## Doorbells (R362, R364) -/

/-- The port by which a doorbell comes. -/
def doorPort : DoorSource → Option (Fin 2)
  | .vf p _ => some p
  | .pf p => some p
  | _ => none

/-- The PCIe function by which a doorbell comes. -/
def doorFn : DoorSource → Option (Fin 2 × PcieFn)
  | .vf p n => some (p, .vf n)
  | .pf p => some (p, .pf)
  | _ => none

/-- Every posted write of a PCIe function has been performed (R258). -/
def State.barQuiet (s : State) (p : Fin 2) (fn : PcieFn) : Bool := s.mem.ops.all fun o => o.who != .bar p fn

/-- A doorbell has to wait for posted writes of its function (R258). -/
def State.doorWaits (s : State) (src : DoorSource) : Bool := match doorFn src with | some f => !s.barQuiet f.1 f.2 | none => false

/-- The ring takes doorbells from the source. -/
def State.doorFrom (s : State) (src : DoorSource) (r : Nat) : Bool :=
  if s.ringMgmt r then
    match src with
    | .pf p => s.ringSrc r == p.val
    | .mgmtCore => true
    | _ => false
  else match src with
    | .vf p n => s.ringSrc r == p.val && n.val == r / 4
    | .control => s.ringSrc r == 2
    | _ => false

/-- A doorbell is accepted. -/
def State.doorOk (s : State) (src : DoorSource) (r : Nat) (tail : BitVec 32) : Bool :=
  let d := (tail - s.ringTail r).toNat
  s.ringEn r && s.doorFrom src r && decide (1 ≤ d ∧ d ≤ s.ringSize r)

/-- The die whose HST_HERR counts a doorbell that is ignored: the port's, else that of SRC (log entry 46). -/
def State.doorDie (s : State) (src : DoorSource) (r : Nat) : Fin 2 :=
  match doorPort src with
  | some p => p
  | none => if s.ringSrc r = 1 then 1 else 0

/-- A doorbell comes. One that has to wait changes nothing, and comes again (log entry 1). -/
def State.doorbell (s : State) (src : DoorSource) (r : Nat) (tail : BitVec 32) : State :=
  let down := match doorPort src with | some p => !s.pcieUp p | none => false
  if down || s.doorWaits src then s
  else if s.doorOk src r tail then s.setFld (rRingIdx r) 32 32 tail.toNat
  else s.bump (rHstHerr (s.doorDie src r)) 32 16

/-- DOORBELL. -/
def execDoorbell (src : DoorSource) (ring : Fin 64) (tail : BitVec 32) (s : State) : Answer :=
  .next (s.doorbell src ring.val tail)

/-- A write of CTL_RING_DB_r (Table 10.20). -/
def State.dbWrite (s : State) (src : RegSource) (r : Nat) (v : Word) : State :=
  let tail : BitVec 32 := field v 0 32
  let bad := fun (s : State) => s.bump (rHstHerr (if s.ringSrc r = 1 then 1 else 0)) 32 16
  match src with
  | .pf p => if s.ringMgmt r then s.doorbell (.pf p) r tail else s.bump (rHstHerr p) 32 16
  | .mgmtCore => if s.ringMgmt r then s.doorbell .mgmtCore r tail else bad s
  | _ => bad s

/-! ## Enabling a ring (R369, R370) -/

/-- A place where completion records may lie: for a host window, that of the port named by SRC (R363). -/
def State.cqPlace (s : State) (r : Nat) (pl : Place) : Bool :=
  match pl with
  | .hbm _ _ | .reservoir _ => !s.fencedPlace pl
  | .host p _ => s.ringSrc r == p.val && s.pcieUp p && !s.fencedPlace pl
  | _ => false

/-- The bytes of completion slot `t` as enabling writes them. -/
def slotInit (size t : Nat) : Nat := (t + 0x100000000 - size) % 0x100000000

/-- Writes the completion slots `from` to `from + n - 1`. -/
def State.writeSlots (s : State) (r size from' n : Nat) : State :=
  let pa := s.cqBase r + from' * 32
  s.bytesWrite pa (domContext (r / 4)) (n * 32) (packNat 256 ((List.range n).map fun i => slotInit size (from' + i))) .posted

/-- EN has been set: the indexes begin at 0, and every completion slot is written, 128 slots to a tile. A ring whose slots
cannot be written is stopped (DESIGN CHOICE, log entry 47). -/
def State.startRing (s : State) (r : Nat) : State :=
  let size := s.ringSize r
  let s := ((s.setReg (rRingIdx r) 0).setRingNext r 0).setRBit (rRingCfg r) 59 false
  let s := { s with host := { s.host with ringDone := s.host.ringDone.filter fun e => e.1 != r, halted := s.host.halted.filter fun x => x != r } }
  if s.cqPlace r (placeOf (s.cqBase r)) then
    (List.range ((size + 127) / 128)).foldl (fun s k => s.writeSlots r size (128 * k) (min 128 (size - 128 * k))) s
  else s.setRBit (rRingCfg r) 59 true

/-- A write of CTL_RING_CFG_r (R364, R370). Reserved codes of SIZE_CODE and SRC make it void (DESIGN CHOICE, log entry 47). -/
def State.ringWrite (s : State) (src : RegSource) (r : Nat) (v : Word) : State :=
  let a := rRingCfg r
  if s.ringEn r then
    if bit v 63 || !(s.ringCmds r).isEmpty then s
    else
      let s := s.setRBit a 63 false
      { s with host := { s.host with halted := s.host.halted.filter fun x => x != r } }
  else if 12 < fieldN v 52 4 ∨ fieldN v 60 2 = 3 then s
  else
    let mayMgmt := match src with | .pf _ | .mgmtCore => true | _ => false
    let v := if mayMgmt then v else setBit v 62 (s.ringMgmt r)
    let s := s.mergeReg a v
    if bit v 63 then s.startRing r else s

/-- A write of CTL_CQ_CFG_r: without effect while EN is 1 (R370). -/
def State.cqWrite (s : State) (r : Nat) (v : Word) : State := if s.ringEn r then s else s.mergeReg (rCqCfg r) v

/-- RING_ENABLE. -/
def execRingEnable (src : RegSource) (ring : Fin 64) (v : Word) (s : State) : Answer :=
  .next (s.onWrite src (rRingCfg ring.val) fun s => s.ringWrite src ring.val v)

/-! ## The latch log (R491) -/

/-- Adds up counters. -/
def State.cntSum (s : State) (l : List Nat) : Nat := (l.map fun i => (mget (fun _ => 0) s.cnt i).toNat).foldl (· + ·) 0

/-- The 64 bytes of a record of the latch log (Table 14.5), as a number. -/
def State.logRecord (s : State) (ring : Nat) (idx : BitVec 32) (kind : Nat) (st : BitVec 8) : Nat :=
  let put := fun (v : Nat) => v % 2 ^ 64
  let rng := fun a n => s.cntSum ((List.range n).map (a + ·))
  let odd := fun k => s.cntSum ((List.range 36).map fun j => 72 + 2 * j + k)
  packNat 64 [s.ftc.toNat, idx.toNat + ring * 2 ^ 32 + kind * 2 ^ 40 + st.toNat * 2 ^ 48, put (rng 0 8), put (rng 8 8), put (rng 16 8),
    put (rng 24 48), put (odd 0), put (odd 1)]

/-- A latching event: the start or the end of a command. A full log overwrites its oldest record; `logFull` is the model's mark
that it has come round. -/
def State.latchLog (s : State) (ring : Nat) (idx : BitVec 32) (kind : Nat) (st : BitVec 8) : State :=
  let cap := s.fld rObsLogCfg 48 15 * 32768
  if !s.rbit rObsLogCfg 63 || cap == 0 then s
  else
    let n := s.fld rObsLogPtr 0 24 % cap
    let pa := s.fld rObsLogCfg 21 27 * 0x200000 + 64 * n
    let s := s.bytesWrite pa domPackage 64 (s.logRecord ring idx kind st) .posted
    let s := if s.sys.logFull then s.bump rObsLogPtr 48 16 else s
    let s := s.setFld rObsLogPtr 0 24 ((n + 1) % cap)
    if n + 1 = cap then { s with sys := { s.sys with logFull := true } } else s

/-- A write of OBS_LOG_CFG: its other fields take no write while EN is 1. A log that is enabled begins anew (DESIGN CHOICE, log
entry 48). -/
def State.logCfgWrite (s : State) (v : Word) : State :=
  if s.rbit rObsLogCfg 63 then (if bit v 63 then s else s.setRBit rObsLogCfg 63 false)
  else
    let sz := fieldN v 48 15
    let s := if 1 ≤ sz ∧ sz ≤ 512 then s.mergeReg rObsLogCfg v else s.mergeReg rObsLogCfg (setField v 48 15 (s.fld rObsLogCfg 48 15))
    if bit v 63 then { s.setFld rObsLogPtr 0 24 0 with sys := { s.sys with logFull := false } } else s

/-! ## Completion (R368, R371) -/

/-- The one status of a command (R371). -/
def Cmd.result (c : Cmd) : BitVec 8 :=
  if c.status ≠ 0 then c.status
  else if c.warn.getLsbD 2 then stSaturated
  else if c.warn.getLsbD 1 then stDropped
  else if c.warn.getLsbD 0 then stOverrun
  else stOk

/-- TYPE of the descriptor. -/
def Cmd.type (c : Cmd) : Nat := dsc c.desc 0 1

/-- DETAIL: only the types of Table 10.3 that have one. -/
def Cmd.shown (c : Cmd) : Nat := if c.type = 4 ∨ c.type = 6 ∨ 6 < c.type ∨ c.type = 0 then 0 else c.detail.toNat

/-- The 32 bytes of the completion record (Table 10.3), as a number. -/
def Cmd.record (c : Cmd) (fin : Word) : Nat :=
  packNat 64 [c.idx.toNat + c.result.toNat * 2 ^ 32 + c.type * 2 ^ 40 + c.warn.toNat % 8 * 2 ^ 48,
    dsc c.desc 4 4 + c.shown * 2 ^ 32, c.start.toNat, fin.toNat]

/-- The message of a ring: vector j of VFn, or vector r of the PF for a MGMT ring; none of the control complex. -/
def State.ringMsg (s : State) (c : Cmd) : Requester :=
  if bitsAt c.desc 9 1 = 0 ∨ 2 ≤ s.ringSrc c.ring then .posted
  else
    let p : Fin 2 := if s.ringSrc c.ring = 1 then 1 else 0
    if s.ringMgmt c.ring then .record p .pf c.ring else .record p (.vf (ringCtx c.ring)) (c.ring % 4)

/-- LOW passes every index that has completed. -/
def State.advanceLow (r : Nat) : Nat → State → State
  | 0, s => s
  | n + 1, s =>
    let low := s.ringLow r
    if s.host.ringDone.contains (r, low) then
      State.advanceLow r n
        { s.setFld (rRingIdx r) 0 32 (low + 1).toNat with
          host := { s.host with ringDone := s.host.ringDone.filter fun e => e != (r, low) } }
    else s

/-- Completes a command: its record is written once, unless the ring is stopped; a record that cannot be written stops the
ring. -/
def State.complete (s : State) (c : Cmd) : State :=
  let s := s.latchLog c.ring c.idx 1 c.result
  let pa := s.cqBase c.ring + c.idx.toNat % s.ringSize c.ring * 32
  let s :=
    if s.ringStopped c.ring then s
    else if s.cqPlace c.ring (placeOf pa) then
      s.bytesWrite pa (domContext (c.ring / 4)) 32 (c.record s.ftc) (s.ringMsg c)
    else s.setRBit (rRingCfg c.ring) 59 true
  let upd : HostSt :=
    { s.host with
      cmds := s.host.cmds.filter fun x => !(x.ring == c.ring && x.idx == c.idx)
      ringDone := s.host.ringDone ++ [(c.ring, c.idx)] }
  (State.advanceLow c.ring 65536 { s with host := upd }).stopRings

end Sys2Proof.Machine
end

