-- ==== Sys2Proof/Machine/Pages.lean ====
section
/-! DEFINITION. The page tables that the control-complex runtime keeps for the contexts, what each context uses, and the choice of
free pages (Memory levels and tile checking, R206 to R210; Host links, commands and the control complex, R378, R379, R550). The
manual does not say where the runtime keeps its tables: log entry 50. -/

namespace Sys2Proof.Machine

/-! ## Reading the tables -/

/-- The non-zero words of the `n` bytes at `a`, with their indices. -/
def Mem.words (m : Mem) (a n : Nat) : List (Nat × Word) :=
  let near := m.pkg.filter fun e => decide (a ≤ e.1 ∧ e.1 < a + n)
  (ascending (near.map fun e => (e.1 - a) / 8)).map fun i => (i, BitVec.ofNat 64 (m.num (a + 8 * i) 8))

/-- A page that a table maps: its context address and physical address in units of 2 MiB, and how many it covers. -/
structure Mapped where
  ca : Nat
  pa : Nat
  n : Nat
deriving DecidableEq, Repr

def leafPage (e : Word) : Nat := pteAddr e / 0x200000

/-- The pages mapped by a second-level table of root index `i`. -/
def Mem.secondLevel (m : Mem) (i table : Nat) : List Mapped :=
  (m.words table 4096).filterMap fun e =>
    if pteV e.2 && pteLeaf e.2 && !pteReserved e.2 then some ⟨i * 512 + e.1, leafPage e.2, 1⟩ else none

/-- The pages mapped by a root table. -/
def Mem.mappedBy (m : Mem) (root : Nat) : List Mapped :=
  (m.words root 0x200000).flatMap fun e =>
    if !pteV e.2 || pteReserved e.2 then []
    else if pteLeaf e.2 then [⟨e.1 * 512, leafPage e.2, 512⟩]
    else m.secondLevel e.1 (pteAddr e.2)

/-- The root tables of a context, each once: those of its valid MEM_PTROOT_n. -/
def State.roots (s : State) (n : Nat) : List Nat :=
  ascending (allParts.filterMap fun p =>
    let r := s.reg (rPtRoot p n)
    if bit r 63 then some (fieldN r 21 27 * 0x200000) else none)

/-- The pages mapped for a context; a page mapped twice stands twice (R378). -/
def State.mappedFor (s : State) (n : Nat) : List Mapped := (s.roots n).flatMap s.mem.mappedBy

/-! ## Use (R378) -/

/-- Pages of HBM (or of reservoirs) that a context uses. -/
def State.pagesUsed (s : State) (n : Nat) (hbm : Bool) : Nat :=
  ((s.mappedFor n).map fun m => match placeOf (m.pa * 0x200000) with
    | .hbm _ _ => if hbm then m.n else 0
    | .reservoir _ => if hbm then 0 else m.n
    | _ => 0).foldl (· + ·) 0

/-- Windows of a context. -/
def State.windowsUsed (s : State) (n : Nat) : Nat :=
  ((List.range 64).filter fun w => decide (1 ≤ w) && s.winValid w && s.winCtx w == n).length

/-- Reduction slots of a context on each engine. -/
def State.slotsUsed (s : State) (n : Nat) : Nat := s.slotsHeld fun c => c.ctx.val == n

/-- CTL_CTX_USE_n. -/
def State.ctxUse (s : State) (n : Nat) : Word :=
  setField (setField (setField (setField 0 44 20 (s.pagesUsed n true)) 31 13 (s.pagesUsed n false)) 25 6 (s.windowsUsed n)) 12 13
    (s.slotsUsed n)

/-! ## Free pages (R210, R550) -/

/-- The context has work that may still reach a page it was unmapped from. -/
def State.ctxBusy (s : State) (n : Nat) : Bool :=
  (s.host.cmds.any fun c => c.ring / 4 == n) || (s.launches.any fun l => l.ctx.val == n) || s.colls.any fun c => c.ctx.val == n

/-- Where the runtime keeps its tables: 64 MiB below the default trace buffer of partition 0, 16 roots and then second-level tables
(DESIGN CHOICE, log entry 50). -/
def tableBase : Nat := 0x5F5FE00000

def tablesMax : Nat := 8192

/-- Regions reserved for the package, as a first page and a number of pages: both dump regions, the trace buffers, the latch log, the
runtime's tables. -/
def State.reservedPages (s : State) : List (Nat × Nat) :=
  [(s.fld rMgtDumpCfg 37 27, 128), (s.fld rMgtDumpCfg 10 27, 128), (tableBase / 0x200000, 32)] ++
    (List.range 4).map (fun p => (s.fld (rTrcBuf p) 21 27, s.fld (rTrcBuf p) 48 16)) ++
    (if s.rbit rObsLogCfg 63 then [(s.fld rObsLogCfg 21 27, s.fld rObsLogCfg 48 15)] else [])

/-- Every run of pages that is not free. -/
def State.takenPages (s : State) : List (Nat × Nat) :=
  s.reservedPages ++ (List.range 16).flatMap (fun n => (s.mappedFor n).map fun m => (m.pa, m.n)) ++
    (s.host.freeing.filter fun e => s.ctxBusy e.1).map fun e => e.2

/-- The lowest run of `n` free pages within `total` pages from `first` on. -/
def lowestRun (taken : List (Nat × Nat)) (first total n : Nat) : Option Nat :=
  let starts := ascending (first :: (taken.map fun t => t.1 + t.2).filter fun x => decide (first ≤ x))
  starts.find? fun x => decide (x + n ≤ first + total) && taken.all fun t => decide (t.1 + t.2 ≤ x ∨ x + n ≤ t.1)

/-- The physical page that MAP chooses: the lowest run of the lowest ready stack that has one, or of the reservoir. -/
def State.findPages (s : State) (reservoir : Bool) (p : Fin 4) (n : Nat) : Option Nat :=
  let taken := s.takenPages
  if reservoir then lowestRun taken ((0x20000000000 + p.val * 0x80000000) / 0x200000) 1024 n
  else (List.range 6).findSome? fun st =>
    if s.fld (rHbmStat p st) 0 4 = 2 then
      lowestRun taken ((p.val * 0x8000000000 + st * 0x1000000000) / 0x200000) (tileArea / 0x200000) n
    else none

/-! ## Writing the tables -/

/-- The runtime writes a word of a table in one step (log entry 23). -/
def State.writeEntry (s : State) (a : Nat) (e : Word) : State :=
  { s with mem := s.mem.pocPart (a / 4096) (rowChanges (a % 4096) 8 e.toNat) }

/-- Gives a context its own root table in every partition that has no valid root for it. -/
def State.giveRoots (s : State) (n : Nat) : State :=
  let root := tableBase + n * 0x200000
  allParts.foldl (fun s p =>
    if s.rbit (rPtRoot p n) 63 then s else s.setReg (rPtRoot p n) (setBit (BitVec.ofNat 64 root) 63 true)) s

/-- The second-level table of a root index, made if there is none. -/
def State.secondTable (s : State) (root i : Nat) : State × Nat :=
  let e := BitVec.ofNat 64 (s.mem.num (root + 8 * i) 8)
  if pteV e && !pteLeaf e then (s, pteAddr e)
  else
    let t := tableBase + 16 * 0x200000 + s.host.tables * 4096
    let s := { s with host := { s.host with tables := s.host.tables + 1 } }
    (s.writeEntry (root + 8 * i) (setBit (BitVec.ofNat 64 t) 63 true), t)

/-- Sets the entry of page `ca` (in units of 2 MiB) in a root's tables. -/
def State.setPage (s : State) (root ca : Nat) (e : Word) : State :=
  let (s, t) := s.secondTable root (ca / 512)
  s.writeEntry (t + ca % 512 * 8) e

/-- A leaf entry of 2 MiB, readable and writable. -/
def leafEntry (page : Nat) : Word := setField (BitVec.ofNat 64 (page * 0x200000)) 60 4 15

/-- Second-level tables that mapping `n` pages from `ca` on still needs. -/
def State.tablesNeeded (s : State) (roots : List Nat) (ca n : Nat) : Nat :=
  (roots.map fun r => ((ascending ((List.range n).map fun i => (ca + i) / 512)).filter fun i =>
    let e := BitVec.ofNat 64 (s.mem.num (r + 8 * i) 8)
    !(pteV e && !pteLeaf e)).length).foldl (· + ·) 0

/-- Maps `n` pages from physical page `pa` on at page `ca` for a context, in every map it has. -/
def State.mapAt (s : State) (ctx ca pa n : Nat) : State :=
  (s.roots ctx).foldl (fun s r => (List.range n).foldl (fun s i => s.setPage r (ca + i) (leafEntry (pa + i))) s) s

/-- Drops the translations of a context that an UNMAP invalidates (R209). -/
def State.dropCached (s : State) (ctx : Nat) : State :=
  allParts.foldl (fun s p => s.modPart p fun x => { x with tlb := x.tlb.filter fun e => e.ctx != ctx }) s

/-- Takes a page out of every map of a context that has it as a page of 2 MiB. -/
def State.clearPage (s : State) (ctx ca : Nat) : State :=
  (s.roots ctx).foldl (fun s r =>
    if (s.mem.mappedBy r).any fun m => m.n == 1 && m.ca == ca then s.setPage r ca 0 else s) s

end Sys2Proof.Machine
end

