-- ==== Sys2Proof/Machine/Mailbox.lean ====
section
/-! DEFINITION. Endpoint windows and the context mailboxes (Package organization, R34 to R36; Host links, commands and the control
complex, R378 to R380, R550). -/

namespace Sys2Proof.Machine

/-! ## Windows (R34 to R36) -/

/-- A place that a window may hold. -/
def Place.windowed : Place → Bool
  | .hbm _ _ | .reservoir _ | .cluster _ _ | .host _ _ => true
  | _ => false

/-- A range of `n` pages of 2 MiB from page `page` may be a window. -/
def windowOk (page n : Nat) : Bool := decide (1 ≤ n ∧ n ≤ 524288) && everyPlace Place.windowed (page * 0x200000) (n * 0x200000)

/-- VALID is cleared: the window is idle once its accepted packets are completed. -/
def State.clearWindow (s : State) (n : Nat) : State :=
  let s := s.setRBit (rEpwBase n) 63 false
  { s with host := { s.host with epwBusy := n :: s.host.epwBusy.filter fun x => x != n } }

/-- A write of CTL_EPW_BASE_n. -/
def State.winWrite (s : State) (n : Nat) (v : Word) : State :=
  if s.winValid n then (if bit v 63 then s else s.clearWindow n)
  else if bit v 63 && !windowOk (fieldN v 21 27) (s.fld (rEpwAttr n) 0 20) then s
  else s.mergeReg (rEpwBase n) v

/-- A write of CTL_EPW_ATTR_n: without effect while VALID is 1. -/
def State.attrWrite (s : State) (n : Nat) (v : Word) : State := if s.winValid n then s else s.mergeReg (rEpwAttr n) v

/-- EPW_VALIDATE. -/
def execEpwValidate (src : RegSource) (n : Fin 64) (v : Word) (s : State) : Answer :=
  .next (s.onWrite src (rEpwBase n.val) fun s => s.winWrite n.val v)

/-- A packet accepted for window `n`. -/
def State.forWindow (s : State) (n : Nat) (p : Packet) : Bool := isRequest p.typ && s.lepOf (epDie p.srcEp) p == n

/-- The window has packets that were accepted and are not completed. -/
def State.windowWork (s : State) (n : Nat) : Bool :=
  (s.mem.ops.any fun o => match o.who with | .packet _ p => s.forWindow n p | _ => false) ||
    [0, 1].any fun d => (s.half d).hold.any fun h => s.forWindow n h.2

/-! ## Mailboxes (R380) -/

/-- The mailbox of a context, which its VF of either port reaches (R357, R380; log entry 100). -/
def mailKey (ctx : Fin 16) : Nat := ctx.val

def State.mailbox (s : State) (k : Nat) : Mailbox := mget (fun _ => Mailbox.reset) s.host.mail k

def State.setMailbox (s : State) (k : Nat) (m : Mailbox) : State :=
  { s with host := { s.host with mail := mput (fun _ => Mailbox.reset) s.host.mail k m } }

/-- The response: BUSY falls. -/
def State.reply (s : State) (k : Nat) (st : BitVec 8) (v : Word) : State :=
  s.setMailbox k { s.mailbox k with busy := false, status := st, value := v }

/-- A byte range of a request. -/
def rq (r : BitVec 512) (o n : Nat) : Nat := bitsAt r (8 * o) (8 * n)

/-- The vfRequests bytes but for those named by `used` are zero. -/
def rqClean (r : BitVec 512) (used : List Nat) : Bool := (List.range 64).all fun i => used.contains i || rq r i 1 == 0

/-- Bytes of PAGES and CADDR. -/
def rqRange : List Nat := [4, 5, 6, 7, 8, 9, 10, 11, 12, 13, 14, 15]

/-- The first page of the context range, and its number of pages; none where CADDR is not 2 MiB aligned, the range is empty or it
leaves the context's addresses (R206, R550). -/
def rqPages (r : BitVec 512) : Option (Nat × Nat) :=
  let n := rq r 4 4
  let ca := rq r 8 8
  if ca % 0x200000 = 0 ∧ n ≠ 0 ∧ ca + n * 0x200000 ≤ 2 ^ 48 then some (ca / 0x200000, n) else none

/-- The context has a page at `ca`. -/
def coversPage (l : List Mapped) (ca : Nat) : Option Mapped := l.find? fun m => decide (m.ca ≤ ca ∧ ca < m.ca + m.n)

/-- A request comes through a port: the link is up, the package is in service and the mailbox is free. A request of a context that is
not active is answered FENCED. -/
def State.vfRequest (s : State) (port : Fin 2) (ctx : Fin 16) (r : BitVec 512) (op : Nat) (f : State → Nat → State) : State :=
  let k := mailKey ctx
  if !s.pcieUp port || s.phase != phReady || (s.mailbox k).busy || rq r 0 1 != op then s
  else
    let s := s.setMailbox k { s.mailbox k with req := r, busy := true }
    if s.rbit (rCtxStat ctx.val) 63 && s.fld (rCtxStat ctx.val) 60 3 == ctxActive then f s k
    else s.reply k stFenced 0

/-- MAP. The quota is looked at before the capacity (Table 10.8). -/
def State.mapRequest (s : State) (ctx : Nat) (r : BitVec 512) (k : Nat) : State :=
  let bad := s.reply k stConfig 0
  let level := rq r 1 1
  match rqPages r with
  | none => bad
  | some (ca, n) =>
    if h : rq r 2 1 < 4 then
      let old := s.mappedFor ctx
      if 1 < level ∨ rqClean r ([0, 1, 2] ++ rqRange) = false ∨ (old.any fun m => decide (m.ca < ca + n ∧ ca < m.ca + m.n)) = true then bad
      else
        let quota := if level = 0 then s.fld (rCtxQuota ctx) 44 20 else s.fld (rCtxQuota ctx) 31 13
        if quota < s.pagesUsed ctx (level == 0) + n then s.reply k stQuota 0
        else
          let s' := s.giveRoots ctx
          match s.findPages (level == 1) ⟨rq r 2 1, h⟩ n with
          | none => s.reply k stQuota 1
          | some pa =>
            if tablesMax < s.host.tables + s'.tablesNeeded (s'.roots ctx) ca n then s.reply k stQuota 1
            else (s'.mapAt ctx ca pa n).reply k stOk (BitVec.ofNat 64 (pa * 0x200000))
    else bad

/-- MAP. -/
def execMapPages (port : Fin 2) (ctx : Fin 16) (req : BitVec 512) (s : State) : Answer :=
  .next (s.vfRequest port ctx req 1 fun s k => s.mapRequest ctx.val req k)

/-- UNMAP: the pages are free once no operation of the context can reach them (R210). -/
def State.unmapRequest (s : State) (ctx : Nat) (r : BitVec 512) (k : Nat) : State :=
  match rqPages r with
  | none => s.reply k stConfig 0
  | some (ca, n) =>
    let old := s.mappedFor ctx
    let pages := (List.range n).map fun i => old.filter fun m => m.n == 1 && m.ca == ca + i
    if rqClean r (0 :: rqRange) = false ∨ (pages.any fun l => l.isEmpty) = true then s.reply k stConfig 0
    else
      let s := (List.range n).foldl (fun s i => s.clearPage ctx (ca + i)) s
      let gone := pages.flatMap fun l => l.map fun m => (ctx, m.pa, 1)
      let live := s.host.freeing.filter fun e => s.ctxBusy e.1
      (({ s with host := { s.host with freeing := live ++ gone } }).dropCached ctx).reply k stOk 0

/-- UNMAP. -/
def execUnmapPages (port : Fin 2) (ctx : Fin 16) (req : BitVec 512) (s : State) : Answer :=
  .next (s.vfRequest port ctx req 2 fun s k => s.unmapRequest ctx.val req k)

/-- The physical pages of a mapped range, if they are contiguous. -/
def contiguous (l : List Mapped) (ca n : Nat) : Option Nat :=
  match coversPage l ca with
  | none => none
  | some m =>
    let pa := m.pa + (ca - m.ca)
    if (List.range n).all fun i => match coversPage l (ca + i) with
      | some m => m.pa + (ca + i - m.ca) == pa + i
      | none => false
    then some pa else none

/-- A window that no context uses: 1 to 63, not VALID and idle. -/
def State.freeWindow (s : State) : Option Nat :=
  (List.range 64).find? fun n => decide (1 ≤ n) && !s.winValid n && !s.host.epwBusy.contains n

/-- EPW_SET makes a window of a mapped range that is one range of physical pages. -/
def State.windowRequest (s : State) (ctx : Nat) (r : BitVec 512) (k : Nat) : State :=
  let flags := rq r 1 1
  match rqPages r with
  | none => s.reply k stConfig 0
  | some (ca, n) =>
    match contiguous (s.mappedFor ctx) ca n with
    | none => s.reply k stConfig 0
    | some pa =>
      if 7 < flags ∨ rqClean r ([0, 1] ++ rqRange) = false ∨ windowOk pa n = false then s.reply k stConfig 0
      else if s.fld (rCtxQuota ctx) 25 6 < s.windowsUsed ctx + 1 then s.reply k stQuota 0
      else match s.freeWindow with
        | none => s.reply k stQuota 1
        | some w =>
          let attr := setField (setField (setField (setField (setField 0 60 4 ctx) 56 1 (flags / 4)) 55 1 (flags / 2)) 54 1 flags) 0 20 n
          ((s.setReg (rEpwAttr w) attr).setReg (rEpwBase w) (setBit (BitVec.ofNat 64 (pa * 0x200000)) 63 true)).reply k stOk
            (BitVec.ofNat 64 w)

/-- EPW_SET. -/
def execEpwSet (port : Fin 2) (ctx : Fin 16) (req : BitVec 512) (s : State) : Answer :=
  .next (s.vfRequest port ctx req 3 fun s k => s.windowRequest ctx.val req k)

/-- EPW_CLR clears a window of the context; its answer comes with EPW_IDLE. -/
def State.clearRequest (s : State) (ctx : Nat) (r : BitVec 512) (k : Nat) : State :=
  let n := rq r 0x10 1
  if n = 0 ∨ 64 ≤ n ∨ s.winValid n = false ∨ s.winCtx n ≠ ctx ∨ rqClean r [0, 0x10] = false then s.reply k stConfig 0
  else s.clearWindow n

/-- EPW_CLR. -/
def execEpwClr (port : Fin 2) (ctx : Fin 16) (req : BitVec 512) (s : State) : Answer :=
  .next (s.vfRequest port ctx req 4 fun s k => s.clearRequest ctx.val req k)

/-- QUERY. -/
def execQuery (port : Fin 2) (ctx : Fin 16) (req : BitVec 512) (s : State) : Answer :=
  .next (s.vfRequest port ctx req 5 fun s k => if rqClean req [0] then s.reply k stOk (s.ctxUse ctx.val) else s.reply k stConfig 0)

/-- The mailboxes that wait for window `n` to be idle. -/
def State.waitingFor (s : State) (n : Nat) : List Nat :=
  (List.range 16).filter fun k => (s.mailbox k).busy && rq (s.mailbox k).req 0 1 == 4 && rq (s.mailbox k).req 0x10 1 == n

/-- EPW_IDLE. -/
def execEpwIdle (n : Fin 64) (s : State) : Answer :=
  .next (if s.host.epwBusy.contains n.val && !s.windowWork n.val then
    let upd := s.host.epwBusy.filter fun x => x != n.val
    (s.waitingFor n.val).foldl (fun s k => s.reply k stOk 0) { s with host := { s.host with epwBusy := upd } }
  else s)

end Sys2Proof.Machine
end

