-- ==== Sys2Proof/Machine/Pcie.lean ====
section
/-! DEFINITION. The host links: PCIe link state, BAR2 accesses, and what remote initiators do over RoCEv2 (Host links, commands and the
control complex, R357 to R362, R382; Lands, signals and electrical ratings, R532). -/

namespace Sys2Proof.Machine

/-! ## Links (R362, R532) -/

/-- A PCIe link goes down. -/
def State.linkDown (s : State) (p : Fin 2) : State := s.setReg (rHstPcie p) 0

/-- PCIE_LINK_DOWN. -/
def execPcieLinkDown (port : Fin 2) (s : State) : Answer := .next (s.linkDown port)

/-- PERST: PERST_N acts as a link-down and resets the port's HST fields that are not sticky. -/
def execPerst (port : Fin 2) (s : State) : Answer := .next ((s.linkDown port).resetRegs [rHstHerr port, rHstAper port])

/-- Rates and widths of Table 10.12. -/
def linkOk (rate width : Nat) : Bool := decide (1 ≤ rate ∧ rate ≤ 6) && [1, 4, 8, 16].contains width

/-- PCIE_LINK_UP: from CLOCKS on (Table 12.1), unless a self-test holds the port down. -/
def execPcieLinkUp (port : Fin 2) (rate : BitVec 4) (width : BitVec 5) (s : State) : Answer :=
  .next (if phClocks ≤ s.phase ∧ s.host.portsHeld.contains port.val = false ∧ linkOk rate.toNat width.toNat = true then
    s.setReg (rHstPcie port) (setField (setField (setField 0 60 4 2) 56 4 rate.toNat) 51 5 width.toNat)
  else s)

/-! ## BAR2 (R358, R359) -/

/-- Counts in BAR2_OOR, or UR, of HST_HERR. -/
def State.barOor (s : State) (p : Fin 2) : State := s.bump (rHstHerr p) 16 16
def State.barUr (s : State) (p : Fin 2) : State := s.bump (rHstHerr p) 0 16

/-- Package memory that PF BAR2 reaches. -/
def barReaches (pa n : Nat) : Bool := everyPlace Place.stored pa n

/-- The physical address that an access names; none where it goes beyond what its function reaches. -/
def State.barAddr (s : State) (port : Fin 2) (fn : PcieFn) (off len : Nat) : Option Nat :=
  match fn with
  | .pf =>
    let pa := s.fld (rHstAper port) 32 16 * 0x100000000 + off
    if off + len ≤ 0x100000000 ∧ barReaches pa len = true then some pa else none
  | .vf n =>
    let r := 4 * n.val + off / 0x800000
    let o := off % 0x800000
    let pa := s.ringBase r + o
    if off < 0x2000000 ∧ o + len ≤ s.ringSize r * 128 ∧ barReaches pa len = true then some pa else none

/-- A byte range of package memory as a read of BAR2 finds it (log entry 35). Writes that are open land as free values name. -/
def State.barRead (s : State) (pa len : Nat) : State × List Byte :=
  let s := (pieces pa len).foldl (fun s e =>
    let a := pa + e.1
    ((s.landSome (a / 4096)).countUncorr (placeOf a)).countRows (placeOf a) false ((a % 64 + e.2 + 63) / 64)) s
  (s, s.mem.bytes pa len)

/-- A write of BAR2: a partial write of each tile it touches. -/
def State.barWrite (s : State) (port : Fin 2) (fn : PcieFn) (pa len : Nat) (data : List Byte) : State :=
  (pieces pa len).foldl (fun s e => s.bytesWrite (pa + e.1) domPackage e.2 (leNat ((data.drop e.1).take e.2)) (.bar port fn)) s

/-- The phases in which BAR2 is served (R422, R427). -/
def State.barServed (s : State) (fn : PcieFn) : Bool :=
  match fn with
  | .pf => decide (phLinks ≤ s.phase ∧ s.phase ≤ phReady)
  | .vf _ => s.phase == phReady

/-- An access of BAR2. A read that has to wait for posted writes of its function changes nothing, and comes again (R258). -/
def State.bar2 (s : State) (port : Fin 2) (fn : PcieFn) (write : Bool) (off len : Nat) (data : List Byte) : State :=
  let zero := fun (s : State) => if write then s else s.emit (.readData port (List.replicate len 0))
  if !s.pcieUp port then s
  else if len % 4 ≠ 0 ∨ off % 4 ≠ 0 ∨ len < 4 ∨ 4096 < len ∨ (write && data.length != len) then s.barUr port
  else if !s.barServed fn then zero s
  else match s.barAddr port fn off len with
  | none => zero (s.barOor port)
  | some pa =>
    if write then (s.count (145 + 2 * port.val) len).barWrite port fn pa len data
    else if !s.barQuiet port fn then s
    else if s.fencedPlace (placeOf pa) then s.emit (.readData port [])
    else
      let (s, b) := s.barRead pa len
      (s.count (144 + 2 * port.val) len).emit (.readData port b)

/-- BAR2_ACCESS. -/
def execBar2Access (port : Fin 2) (fn : PcieFn) (write : Bool) (off : BitVec 32) (len : Nat) (data : List Byte) (s : State) : Answer :=
  .next (s.bar2 port fn write off.toNat len data)

/-! ## Remote initiators (R225, R382) -/

/-- The Ethernet MAC of a die is up. -/
def State.ethUp (s : State) (d : Fin 2) : Bool := s.fld (rHstEth d) 60 4 == 1

/-- The bytes of a request lie within a registered region, tile by tile. -/
def Region.holds (g : Region) (addr tiles : Nat) : Bool :=
  decide (addr % 4096 = 0 ∧ addr + tiles * 4096 ≤ g.pages * 0x200000 ∧ tiles ≠ 0)

/-- Data written by a remote initiator enters with new records (R225). -/
def State.roceWrite (s : State) (d : Fin 2) (g : Region) (addr : Nat) (data : List TileData) : State :=
  (data.zipIdx).foldl (fun s e =>
    (s.count (149 + 2 * d.val) 4096).tileWrite (g.base + addr + 4096 * e.2) (domContext g.ctx.val) (s.entryImg e.1 1 g.fmt g.ctx.val)
      .posted) s

/-- Tiles read by a remote initiator leave without their records. -/
def State.roceRead (s : State) (d : Fin 2) (g : Region) (key : BitVec 32) (addr tiles : Nat) : State :=
  let r := (List.range tiles).foldl (fun (a : State × List TileData) i =>
    match a.1.engineTile (g.base + addr + 4096 * i) g.ctx.val g.fmt with
    | (s, .ok t) => (s, a.2 ++ [t.data])
    | (s, .error _) => (s, a.2)) (s, [])
  (r.1.count (148 + 2 * d.val) (4096 * r.2.length)).emit (.rdma d 0 key addr r.2)

/-- ROCE_REQUEST. A request that names no registered memory is refused and changes nothing. The address counts from the start of the
region (log entry 51). -/
def execRoceRequest (die : Fin 2) (write : Bool) (rkey : BitVec 32) (addr : BitVec 48) (tiles : Nat) (data : List TileData)
    (s : State) : Answer :=
  .next (if !s.ethUp die then s
  else match s.host.regions.find? fun g => g.key == rkey with
    | none => s
    | some g =>
      if !g.holds addr.toNat tiles then s
      else if write then (if data.length = tiles then s.roceWrite die g addr.toNat data else s)
      else s.roceRead die g rkey addr.toNat tiles)

end Sys2Proof.Machine
end

