-- ==== Sys2Proof/Machine/Bist.lean ====
section
/-! DEFINITION. Test slices: the catalogue, the queue, where a slice may start, what it isolates and what it leaves (Self-test, counters
and trace, R479 to R489). -/

namespace Sys2Proof.Machine

/-! ## The catalogue (Table 14.1) -/

def scD2d : Nat := 1
def scBridge : Nat := 2
def scNoc : Nat := 3
def scHbm : Nat := 4
def scPort : Nat := 5
def scRecalPort : Nat := 6
def scRecalD2d : Nat := 7
def scHost : Nat := 8
def scMgmt : Nat := 9
def scFullPart : Nat := 0x81
def scFullIo : Nat := 0x82

/-- TARGET is in range. -/
def sliceTargetOk (code t : Nat) : Bool :=
  if code = scD2d ∨ code = scRecalD2d then decide (t < 128)
  else if code = scBridge then decide (t < 8)
  else if code = scNoc then decide (t < 0x400 ∧ t / 16 % 16 = 0)
  else if code = scHbm then decide (t < 0x400 ∧ t / 128 % 2 = 0 ∧ t / 8 % 2 = 0 ∧ t / 16 % 8 < 6)
  else if code = scPort ∨ code = scRecalPort then decide (t < 0x200 ∧ t % 256 < 36)
  else if code = scHost ∨ code = scFullPart then decide (t < 4)
  else if code = scMgmt then t == 0
  else if code = scFullIo then decide (t < 2)
  else false

/-- Duration in nanoseconds. -/
def sliceDuration (code : Nat) : Nat :=
  if code = scD2d ∨ code = scBridge then 1600000
  else if code = scNoc then 1800000
  else if code = scHbm then 1900000
  else if code = scPort then 1200000
  else if code = scRecalPort then 900000
  else if code = scRecalD2d then 600000
  else if code = scHost then 800000
  else if code = scMgmt then 300000
  else if code = scFullPart then 2400000000
  else 1900000000

/-- Stuck-at and transition coverage of a whole target, in tenths of a percent. -/
def sliceCoverage (code : Nat) : Nat × Nat :=
  if code = scD2d ∨ code = scBridge then (992, 975)
  else if code = scNoc then (986, 950)
  else if code = scHbm then (990, 968)
  else if code = scPort then (995, 981)
  else if code = scHost then (1000, 0)
  else if code = scMgmt then (620, 0)
  else if code = scFullPart then (991, 940)
  else if code = scFullIo then (988, 932)
  else (0, 0)

/-- The effect domain of a slice. -/
inductive SliceDom where
  | part (p : Fin 4) | package | idleOnly | nothing
deriving DecidableEq, Repr

def partNo (n : Nat) : Fin 4 := ⟨n % 4, Nat.mod_lt _ (by decide)⟩

def sliceDomain (code t : Nat) : SliceDom :=
  if code = scD2d ∨ code = scRecalD2d then .part (partNo (t / 16))
  else if code = scNoc ∨ code = scHbm then .part (partNo (t / 256))
  else if code = scBridge ∨ code = scPort ∨ code = scRecalPort then .package
  else if code = scMgmt then .nothing
  else .idleOnly

/-- The unit that a slice takes out: tests and recalibrations of one channel or half have one target. -/
def sliceUnit (code t : Nat) : Nat × Nat :=
  (if code = scRecalPort then scPort else if code = scRecalD2d then scD2d else code, t)

/-- Port and half of a port target. -/
def slicePort (t : Nat) : Nat := t % 256
def sliceHigh (t : Nat) : Bool := t / 256 % 2 == 1

/-! ## The queue (R482, R486) -/

def State.modBst (s : State) (f : Bst → Bst) : State := { s with sys := { s.sys with bst := f s.sys.bst } }

def Slice.running (x : Slice) : Bool := x.start.isSome

/-- QUEUED and RUNNING. -/
def State.showBst (s : State) : State :=
  let q := s.sys.bst.queue
  (s.setFld rBstStat 56 8 (q.filter fun x => !x.running).length).setFld rBstStat 48 8 (q.filter Slice.running).length

def State.queued (s : State) (f : Slice → Bool) : Nat := (s.sys.bst.queue.filter fun x => !x.running && f x).length

/-- A slice of the package's own. -/
def Slice.own (x : Slice) : Bool := x.cmd.isNone

def State.enqueue (s : State) (x : Slice) : State := (s.modBst fun b => { b with queue := b.queue ++ [x] }).showBst

def State.modSlice (s : State) (n : Nat) (f : Slice → Slice) : State :=
  s.modBst fun b => { b with queue := b.queue.modify n f }

def State.dropSlice (s : State) (n : Nat) : State := (s.modBst fun b => { b with queue := b.queue.eraseIdx n }).showBst

/-- The target is absent: a port kept dark by its being disabled, or for want of a licence. -/
def State.sliceAbsent (s : State) (code t : Nat) : Bool :=
  (code == scPort || code == scRecalPort) && s.portState (slicePort t) == portStateDark &&
    (s.fld (rPort (slicePort t)) 50 4 == lcDisabled || s.fld (rPort (slicePort t)) 50 4 == lcLicence)

/-! ## Where a slice may start (R483) -/

def SliceDom.cores : SliceDom → List CoreAddr
  | .part p => coresOf p
  | .nothing => []
  | _ => allCores

/-- No MOVE and no COLLECTIVE is started. -/
def State.movesNothing (s : State) : Bool := s.host.cmds.all fun c => c.type != 2 && c.type != 3

def State.domainIdle (s : State) (d : SliceDom) : Bool :=
  s.movesNothing && d.cores.all fun c => (s.core c).st != .run && (s.core c).st != .barrier

/-- A core is done, or is in a maintenance span of which at least `need` ticks remain. -/
def State.inMaintenance (s : State) (c : CoreAddr) (need : Nat) : Bool :=
  let k := s.core c
  let g := s.group k.group
  if k.st == .run || k.st == .barrier then
    !k.atLaunch && (g.spans.getD k.spanIdx ⟨0, 0, 0⟩).kind == 1 &&
      decide (s.ftc.toNat + need ≤ g.start (k.spanIdx + 1) + s.fld (rSgSlip k.group) 0 48)
  else !k.failFence

/-- The domain is in a maintenance slot with at least `need` ticks left. -/
def State.inSlot (s : State) (d : SliceDom) (need : Nat) : Bool :=
  s.movesNothing && (s.launches.filter fun l => l.locals.any fun c => d.cores.contains c).all fun l =>
    l.locals.all fun c => s.inMaintenance c need

/-- Nothing tests the target. -/
def State.targetFree (s : State) (x : Slice) : Bool :=
  s.sys.bst.queue.all fun y => !(y.running && sliceUnit y.code y.target == sliceUnit x.code x.target)

def State.maySlice (s : State) (x : Slice) : Bool :=
  !x.running && s.targetFree x &&
    (x.force || (decide ((s.sys.bst.queue.filter Slice.running).length < 8) &&
      match sliceDomain x.code x.target with
      | .nothing => true
      | .idleOnly => s.domainIdle .idleOnly
      | d => s.domainIdle d || s.inSlot d (sliceDuration x.code + 50000)))

/-! ## What a slice takes out of service -/

/-- A die-to-die channel goes out of service, or comes back; link 0 of a partition is the north one. -/
def State.setChannel (s : State) (t : Nat) (out : Bool) : State :=
  s.modPart (partNo (t / 16)) fun x =>
    let m := mget (fun _ => 0) x.chanOut (t / 64)
    let b : BitVec 16 := BitVec.ofNat 16 (2 ^ (t % 16))
    { x with chanOut := mput (fun _ => 0) x.chanOut (t / 64) (if out then m ||| b else m &&& ~~~b) }

def State.setBridge (s : State) (t : Nat) (out : Bool) : State :=
  let b : BitVec 8 := BitVec.ofNat 8 (2 ^ t)
  { s with sys := { s.sys with bridgeOut := if out then s.sys.bridgeOut ||| b else s.sys.bridgeOut &&& ~~~b } }

/-- A host port goes down and is held there: 0, 1 PCIe, 2, 3 Ethernet. -/
def State.holdHost (s : State) (t : Nat) : State :=
  let s := { s with host := { s.host with portsHeld := t :: s.host.portsHeld.filter fun x => x != t } }
  if t < 2 then s.linkDown (dieOf t) else s.setFld (rHstEth (dieOf t)) 60 4 0

/-- It is free to come up again. -/
def State.freeHost (s : State) (t : Nat) : State :=
  let s := { s with host := { s.host with portsHeld := s.host.portsHeld.filter fun x => x != t } }
  if t < 2 then s.setFld (rHstPcie (dieOf t)) 60 4 1 else s.setFld (rHstEth (dieOf t)) 60 4 1

/-- The partition is put into a reset that holds, for a slice; true if this is what holds it. -/
def State.holdFor (s : State) (p : Fin 4) : State × Bool :=
  if s.resetting fun e => domWithin (.partition p) e then (s, false) else (s.startReset (.partition p) true none, true)

/-- The hold of a slice ends: the partition runs RESTORE. -/
def State.endHold (s : State) (p : Fin 4) : State :=
  if s.heldPart p then s.unhold p else s.modJob (.partition p) fun j => { j with hold := false }

/-- The partition stays held: HOLD is set, for software to clear (R449). -/
def State.keepHold (s : State) (p : Fin 4) : State :=
  let s := s.setRBit (rRstCtl p) 58 true
  if s.resetting fun e => e == .partition p then s.modJob (.partition p) fun j => { j with hold := true }
  else s.startReset (.partition p) true none

/-- A port goes out of service for a forced slice (R308). -/
def State.fencePort (s : State) (n : Nat) : State :=
  if s.portUp n then s.setFld (rPort n) 60 4 portStateDraining else s

/-- Marks a half as under test, or as good again. -/
def State.markHalf (s : State) (n : Nat) (high bad : Bool) : State :=
  s.modPort n fun x => if high then { x with highBad := bad } else { x with lowBad := bad }

/-- The fence of a forced slice (R484): true where it holds the partition. -/
def State.forceFence (s : State) (code t : Nat) : State × Bool :=
  if code = scNoc ∨ code = scHbm then s.holdFor (partNo (t / 256))
  else if code = scFullPart then s.holdFor (partNo t)
  else if code = scFullIo then (s.fenceDomain .package, false)
  else if code = scPort ∨ code = scRecalPort then (s.fencePort (slicePort t), false)
  else if code = scD2d ∨ code = scRecalD2d then (s.setChannel t true, false)
  else if code = scBridge then (s.setBridge t true, false)
  else if code = scHost then (s.holdHost t, false)
  else (s, false)

/-- The slice isolates its target: the state, and whether the slice holds the partition. -/
def State.isolate (s : State) (x : Slice) : State × Bool :=
  let t := x.target
  if x.code = scD2d ∨ x.code = scRecalD2d then (s.setChannel t true, x.fenced)
  else if x.code = scBridge then (s.setBridge t true, x.fenced)
  else if x.code = scPort ∨ x.code = scRecalPort then
    (if x.force then s.markHalf (slicePort t) (sliceHigh t) true else s.halfLost (slicePort t) (sliceHigh t), x.fenced)
  else if x.code = scHost then (s.holdHost t, x.fenced)
  else if x.code = scFullPart then (if x.force then (s, x.fenced) else s.holdFor (partNo t))
  else if x.code = scFullIo then (if x.force then s else s.fenceDomain .package, x.fenced)
  else (s, x.fenced)

/-- Slice `n` of the queue starts. -/
def State.startSlice (s : State) (n : Nat) (x : Slice) : State :=
  let r := s.isolate x
  (r.1.modSlice n fun y => { y with start := some (s.ftc, s.now), fenced := r.2 }).showBst

/-- The oldest slice that may start. -/
def State.nextSlice (s : State) : Option (Nat × Slice) := findIdx s.maySlice s.sys.bst.queue

/-- Accepts a slice; a forced one fences first, and one without an effect domain starts at once. -/
def State.acceptSlice (s : State) (x : Slice) : State :=
  let n := s.sys.bst.queue.length
  let r := if x.force then s.forceFence x.code x.target else (s, false)
  let x := { x with fenced := r.2 }
  let s := r.1.enqueue x
  if (x.force || sliceDomain x.code x.target == .nothing) && s.maySlice x then s.startSlice n x else s

/-- SLICE_START. -/
def execSliceStart (s : State) : Answer := .next (match s.nextSlice with | some (n, x) => s.startSlice n x | none => s)

/-! ## MAINT (R482, R488) -/

/-- The status with which a MAINT is refused. REPORT names a whole tile. -/
def State.maintRefused (s : State) (d : BitVec 1024) : Option (BitVec 8) :=
  let code := dsc d 0x10 2
  let t := dsc d 0x14 4
  let port := (code == scPort || code == scRecalPort) && sliceTargetOk code t
  if port && s.fld rMgtLic 62 2 == 0 && portRole (slicePort t) == 6 then some stLicence
  else if !sliceTargetOk code t || s.sliceAbsent code t || dsc d 0x18 8 % 4096 != 0 then some stConfig
  else if (code == scFullPart || code == scFullIo) && (s.fld rMgtLc 61 3 == 1 || s.fld rMgtLc 61 3 == 2) then some stLicence
  else if 64 ≤ s.queued (fun _ => true) then some stQuota
  else none

/-- Accepts a MAINT, or refuses it. -/
def State.startMaint (s : State) (ring : Nat) (idx : BitVec 32) (part : Fin 4) (d : BitVec 1024) : State :=
  match s.maintRefused d with
  | some st => s.modCmd ring idx fun c => c.finish st
  | none =>
    s.acceptSlice
      { code := dsc d 0x10 2, target := dsc d 0x14 4, force := bitsAt d (8 * 0x12) 1 == 1, cmd := some (ring, idx), dsp := false
        report := dsc d 0x18 8, part := part, req := s.ftc, reqAt := s.now, start := none, fenced := false }

/-! ## Ends -/

/-- A port half rejoins: a port that is up retrains at its new width, one that is out of service trains. -/
def State.rejoin (s : State) (n : Nat) : State :=
  if s.portUp n || s.portState n == portStateDraining then (s.showPort n portStateTraining 0 lcNone).startResync n
  else if (s.portState n == portStateFailed && s.fld (rPort n) 50 4 == lcLock) ||
      (s.portState n == portStateDark && s.rbit (rPort n) 49 && s.fld (rPort n) 50 4 == lcDisabled) then
    s.showPort n portStateTraining 0 lcNone
  else s

/-- Lines that failed and were not remapped to spares. -/
def beyondSpares (r : SliceResult) : Bool :=
  decide (r.repaired.toNat < ((List.range 64).filter fun i => bit r.failmap i).length)

/-- Every output goes off (R427). -/
def State.outputsOff (s : State) : State :=
  let s := (List.range 12).foldl (fun s m => if (s.lsm m).lit then s.darken m else s) s
  [0, 1].foldl (fun s (d : Fin 2) => s.setFld (rHstEth d) 60 4 0) s

/-- The target passes and returns to service (R481, R484). -/
def State.slicePassed (s : State) (x : Slice) : State :=
  let t := x.target
  if x.code = scD2d ∨ x.code = scRecalD2d then s.setChannel t false
  else if x.code = scBridge then s.setBridge t false
  else if x.code = scNoc ∨ x.code = scHbm then (if x.fenced then s.endHold (partNo (t / 256)) else s)
  else if x.code = scPort ∨ x.code = scRecalPort then (s.markHalf (slicePort t) (sliceHigh t) false).rejoin (slicePort t)
  else if x.code = scHost then s.freeHost t
  else if x.code = scFullPart then (if x.fenced then s.endHold (partNo t) else s)
  else if x.code = scFullIo then s.startPackage 1 none
  else s

/-- The target fails and stays as the catalogue says. -/
def State.sliceFailed (s : State) (x : Slice) (r : SliceResult) : State :=
  let t := x.target
  if x.code = scNoc then s.keepHold (partNo (t / 256))
  else if x.code = scHbm then
    let s := if beyondSpares r then s.setFld (rHbmStat (partNo (t / 256)) (t / 16 % 8)) 0 4 4 else s
    if x.fenced then s.endHold (partNo (t / 256)) else s
  else if x.code = scPort ∨ x.code = scRecalPort then (if x.force then s.rejoin (slicePort t) else s)
  else if x.code = scFullPart then (s.setRBit rMgtBoot (52 + t) false).keepHold (partNo t)
  else if x.code = scFullIo then (s.setPhase phFailed 8).outputsOff
  else s

/-- Coverage achieved: never above the catalogue's. -/
def sliceCov (code : Nat) (r : SliceResult) : Nat × Nat :=
  (min r.covSa.toNat (sliceCoverage code).1, min r.covTr.toNat (sliceCoverage code).2)

/-- What a slice is reported with. -/
structure SliceEnd where
  status : BitVec 8
  verdict : Nat
  cut : Bool
  cov : Nat × Nat
  repaired : Nat
  failmap : Word
  /-- microseconds, and the tick of isolation -/
  duration : Nat
  start : Word

/-- BST_STAT, BST_LAST and BST_LAST_COV. -/
def State.latchBst (s : State) (x : Slice) (e : SliceEnd) : State :=
  let s := s.modReg rBstStat fun v => bumpHold v 0 32
  let s := if e.verdict = 1 then s.modReg rBstStat fun v => bumpHold v 32 16 else s
  let seq := s.fld rBstStat 0 32
  let last := setField (setField (setField (setField (setField 0 48 16 x.code) 40 8 e.status.toNat) 38 2 e.verdict) 16 16 seq) 0 16 x.target
  let cov := setField (setField (setField (setField 0 54 10 e.cov.1) 44 10 e.cov.2) 16 16 seq) 0 16 (min e.duration 0xFFFF)
  (s.setReg rBstLast last).setReg rBstLastCov cov

/-- The report (Table 14.2). -/
def State.sliceReport (s : State) (x : Slice) (e : SliceEnd) : TileData :=
  BitVec.ofNat 32768 (0x4B394252 + 1 * 2 ^ 32 + x.code * 2 ^ 48 + e.verdict * 2 ^ 56 + x.target * 2 ^ 64 + e.status.toNat * 2 ^ 96 +
    ((if x.force then 1 else 0) + if e.cut then 2 else 0) * 2 ^ 104 + e.cov.1 * 2 ^ 112 + e.cov.2 * 2 ^ 128 + e.repaired * 2 ^ 144 +
    e.duration % 2 ^ 32 * 2 ^ 160 + x.req.toNat * 2 ^ 192 + e.start.toNat * 2 ^ 256 + s.ftc.toNat * 2 ^ 320 + e.failmap.toNat * 2 ^ 384 +
    s.ptc.toNat % 2 ^ 32 * 2 ^ 448)

/-- A tile that the package writes with OWNER.MGT = 1, untyped (R489, R519). -/
def State.mgtTile (s : State) (data : TileData) : TileImg := ⟨data, freshRec data 1 fmtUntyped 0 s.ownerMgt noAnchor⟩

/-- The report of a MAINT is written, and the command completes once it is. -/
def State.reportSlice (s : State) (x : Slice) (e : SliceEnd) : State :=
  match x.cmd with
  | none => s
  | some (r, i) =>
    let ctx := ringCtx r
    let s := s.modCmd r i fun c => { c with status := if c.status = 0 then e.status else c.status, left := 1 }
    match s.translateTiles .engine x.part ctx.val (BitVec.ofNat 64 x.report) true 1 with
    | (s, .ok [pa]) => s.tileWrite pa (domContext ctx.val) (s.mgtTile (s.sliceReport x e)) (.command r i)
    | (s, _) => s.modCmd r i fun c => c.finish stConfig

/-- A port half has loaded new DSP code (R511). -/
def State.dspLoaded (s : State) (x : Slice) : State :=
  if x.dsp then
    let h := 2 * slicePort x.target + if sliceHigh x.target then 1 else 0
    { s with sys := { s.sys with upd := { s.sys.upd with halves := insertUp h s.sys.upd.halves } } }
  else s

/-- A slice ends. -/
def State.endSlice (s : State) (n : Nat) (x : Slice) (pass cut : Bool) (r : SliceResult) : State :=
  match x.start with
  | none => s
  | some (f, t0) =>
    let e : SliceEnd := ⟨stOk, if pass then 0 else 1, cut, sliceCov x.code r, r.repaired.toNat, r.failmap, (s.now - t0) / 1000, f⟩
    let s := s.dropSlice n
    let s := if pass then (s.slicePassed x).dspLoaded x else s.sliceFailed x r
    ((s.latchBst x e).reportSlice x e)

/-- SLICE_END. -/
def execSliceEnd (n : Nat) (r : SliceResult) (s : State) : Answer :=
  .next (match s.sys.bst.queue[n]? with
    | some x => match x.start with
      | some (_, t0) => if s.now < t0 + sliceDuration x.code then s.endSlice n x r.pass false r else s
      | none => s
    | none => s)

/-- SLICE_CUT: the catalogue duration is reached (R480). -/
def execSliceCut (n : Nat) (r : SliceResult) (s : State) : Answer :=
  .next (match s.sys.bst.queue[n]? with
    | some x => match x.start with
      | some (_, t0) => if t0 + sliceDuration x.code ≤ s.now then s.endSlice n x false true r else s
      | none => s
    | none => s)

/-- A slice leaves the queue unstarted; one that loads DSP code is queued again (R485, R511). -/
def State.expireSlice (s : State) (n : Nat) (x : Slice) : State :=
  let e : SliceEnd := ⟨stTimeout, 2, false, (0, 0), 0, 0, 0, 0⟩
  let s := ((s.dropSlice n).latchBst x e).reportSlice x e
  if x.dsp then s.enqueue { x with req := s.ftc, reqAt := s.now } else s

/-- SLICE_EXPIRE. -/
def execSliceExpire (n : Nat) (s : State) : Answer :=
  .next (match s.sys.bst.queue[n]? with
    | some x =>
      if x.start.isNone && decide (x.reqAt + s.fld rBstSched 16 16 * 1000000000 ≤ s.now) then s.expireSlice n x else s
    | none => s)

/-! ## Periodic slices (R486) -/

/-- The pairs of a period, in catalogue order and then in TARGET order. -/
def periodicPair (n : Nat) : Option (Nat × Nat) :=
  if n < 128 then some (scD2d, n)
  else if n < 136 then some (scBridge, n - 128)
  else if n < 200 then some (scNoc, (n - 136) / 16 * 256 + (n - 136) % 16)
  else if n < 392 then
    let k := n - 200
    some (scHbm, k / 48 * 256 + k % 48 / 8 * 16 + k % 8)
  else if n < 464 then some (scPort, (n - 392) / 36 * 256 + (n - 392) % 36)
  else if n < 536 then some (scRecalPort, (n - 464) / 36 * 256 + (n - 464) % 36)
  else if n < 664 then some (scRecalD2d, n - 536)
  else if n = 664 then some (scMgmt, 0)
  else none

def blankSlice : Slice :=
  { code := 0, target := 0, force := false, cmd := none, dsp := false, report := 0, part := 0, req := 0, reqAt := 0, start := none
    fenced := false }

/-- Queues the next pair of the period. A new period begins with the first. -/
def State.queuePeriodic (s : State) : State :=
  let cur := s.now / (s.fld rBstSched 32 16 * 3600000000000)
  let s := if cur = s.sys.bst.period then s else s.modBst fun b => { b with period := cur, next := 0 }
  match periodicPair s.sys.bst.next with
  | none => s
  | some (code, t) =>
    if 8 ≤ s.queued Slice.own ∨ 64 ≤ s.queued (fun _ => true) then s
    else
      let s := s.modBst fun b => { b with next := b.next + 1 }
      if s.sliceAbsent code t then s
      else s.acceptSlice { blankSlice with code := code, target := t, req := s.ftc, reqAt := s.now }

/-- The halves of ports that are up. -/
def State.upHalves (s : State) : List Nat :=
  ((List.range 36).filter s.portUp).flatMap fun n => (if s.portWidth n % 2 = 1 then [2 * n] else []) ++ if s.portWidth n / 2 = 1 then [2 * n + 1] else []

/-- A slice that loads DSP code into a half waits or runs. -/
def State.dspQueued (s : State) (h : Nat) : Bool := s.sys.bst.queue.any fun x => x.dsp && x.target == h / 2 + h % 2 * 256

/-- Queues RECAL_PORT slices for the halves that still run other DSP code, as far as the limit allows (R511). -/
def State.queueDsp (s : State) : State :=
  s.upHalves.foldl (fun s h =>
    if s.sys.upd.halves.contains h || s.dspQueued h || decide (8 ≤ s.queued Slice.own) || decide (64 ≤ s.queued fun _ => true) then s
    else s.acceptSlice
      { blankSlice with code := scRecalPort, target := h / 2 + h % 2 * 256, dsp := true, req := s.ftc, reqAt := s.now }) s

/-- PERIODIC_SLICE_QUEUE: the slices that an update needs, and the next pair of the period. -/
def execPeriodicSliceQueue (s : State) : Answer :=
  let s := if s.fld rMgtUpdStat 60 4 = 4 ∨ s.fld rMgtUpdStat 60 4 = 5 then s.queueDsp else s
  .next (if s.rbit rBstSched 63 && s.phase == phReady then s.queuePeriodic else s)

end Sys2Proof.Machine
end

