-- ==== Sys2Proof/Machine/Launch.lean ====
section
/-! DEFINITION. The start of a LAUNCH: the checks of a schedule image, its binding to packages and cores, and the loading of
its local cores (Spans, static schedules and the Smient flow, R172 to R178, R186, R198 to R200; Host links, commands and the
control complex, R373). -/

namespace Sys2Proof.Machine

/-! ## The image (Tables 5.1, 5.2) -/

/-- Bytes `o` to `o + n - 1` are zero. -/
def zeroAt (b : List Byte) (o n : Nat) : Bool := ((b.drop o).take n).all fun x => x == 0

/-- The image with DIGEST zero has the digest that it carries. -/
def digestOk (b : List Byte) : Bool :=
  decide (sha384 (b.take 0xD0 ++ List.replicate 48 0 ++ b.drop 0x100) = BitVec.ofNat 384 (leAt b 0xD0 48))

/-- The header of an image whose length is that of the bytes (R172, R173, R198). -/
def imageHead (b : List Byte) : Bool :=
  let f := leAt b
  let (x, y, z) := (f 0x18 2, f 0x1A 2, f 0x1C 2)
  decide (f 0 4 = 0x4B395343 ∧ f 4 2 = 1 ∧ f 6 2 < 32 ∧ 1400 ≤ f 0xC 2 ∧ f 0xC 2 ≤ 2300 ∧ 1 ≤ f 0xE 2) &&
    decide (1 ≤ f 0x14 2 ∧ f 0x14 2 ≤ 8192 ∧ f 0x16 1 ≤ 2 ∧ f 0x14 2 ≤ x * y * z ∧ 1000000 ≤ f 0x28 8) &&
    zeroAt b 0x17 1 && zeroAt b 0x1E 2 && zeroAt b 0x54 4 && zeroAt b 0x60 112 && f 0x58 8 == b.length

/-- A table of `n` entries of `size` bytes lies within the image. -/
def tableIn (b : List Byte) (off n size : Nat) : Bool := decide (off + n * size ≤ b.length)

/-- Offset of entry `i` of a table whose offset stands at `at'` in the header. -/
def entryAt (b : List Byte) (at' size i : Nat) : Nat := leAt b at' 8 + i * size

def coreEntry (b : List Byte) (i : Nat) : Option CoreEnt :=
  let o := entryAt b 0x40 32 i
  match unpackCore (BitVec.ofNat 9 (leAt b (o + 2) 2)) with
  | none => none
  | some c => some ⟨leAt b o 2, c, leAt b (o + 4) 2, leAt b (o + 8) 8, leAt b (o + 16) 1, leAt b (o + 17) 1, leAt b (o + 18) 2⟩

/-- The entry's fields are as Table 5.2 and R173 ask. A code region of more than core-local memory is a bound that is wrong. -/
def coreEntryOk (b : List Byte) (i : Nat) : Bool :=
  let o := entryAt b 0x40 32 i
  match coreEntry b i with
  | none => false
  | some e =>
    decide (leAt b (o + 2) 2 < 512 ∧ e.pkg < leAt b 0x14 2 ∧ e.group < leAt b 0xE 2 ∧ e.size ≠ 0 ∧ e.base + e.size ≤ 32 ∧
      e.code + e.size * 0x10000 ≤ b.length) && zeroAt b (o + 6) 2 && zeroAt b (o + 20) 12

/-- The core table, in order. -/
def imageCores (b : List Byte) : List CoreEnt := (List.range (leAt b 0x10 4)).filterMap (coreEntry b)

/-- No logical core of a package is named twice. -/
def coresDistinct : List CoreEnt → Bool
  | [] => true
  | e :: r => (r.all fun x => x.pkg != e.pkg || x.core != e.core) && coresDistinct r

/-- The spans of group `g`. -/
def imageSpans (b : List Byte) (g : Nat) : List SpanEnt :=
  let o := entryAt b 0x30 32 g
  (List.range (leAt b (o + 4) 4)).map fun k =>
    let e := entryAt b 0x38 16 (leAt b (o + 8) 4 + k)
    ⟨leAt b e 8, leAt b (e + 8) 4, leAt b (e + 12) 1⟩

/-- Each span begins where the one before it ends. -/
def spansMeet : List SpanEnt → Bool
  | a :: b :: r => decide (b.off = a.off + a.budget) && spansMeet (b :: r)
  | _ => true

/-- A group entry and its spans (R173, R174). -/
def groupOk (b : List Byte) (cores : List CoreEnt) (g : Nat) : Bool :=
  let o := entryAt b 0x30 32 g
  let first := leAt b (o + 8) 4
  let n := leAt b (o + 4) 4
  decide (leAt b (o + 2) 1 ≤ 4 ∧ n ≠ 0 ∧ leAt b (o + 12) 4 = (cores.filter fun e => e.group == g).length) && zeroAt b (o + 3) 1 &&
    zeroAt b (o + 20) 12 && tableIn b (leAt b 0x38 8) (first + n) 16 &&
    (List.range n).all (fun k => zeroAt b (entryAt b 0x38 16 (first + k) + 13) 3) &&
    (imageSpans b g).all (fun e => decide (e.kind ≤ 1)) && spansMeet (imageSpans b g)

/-- A relocation entry names a literal-form MOVI of a blob. -/
def relocOk (b : List Byte) (cores : List CoreEnt) (i : Nat) : Bool :=
  let o := entryAt b 0x48 8 i
  match cores[leAt b o 4]? with
  | none => false
  | some e =>
    let n := leAt b (o + 4) 2
    decide (n < e.size * 2048) && isLiteralMovi (BitVec.ofNat 256 (leAt b (e.code + 32 * n) 32))

/-- The checks of R173 that end in CONFIG_INVALID. -/
def imageOk (b : List Byte) : Bool :=
  imageHead b && tableIn b (leAt b 0x30 8) (leAt b 0xE 2) 32 && tableIn b (leAt b 0x40 8) (leAt b 0x10 4) 32 &&
    tableIn b (leAt b 0x48 8) (leAt b 0x50 4) 8 && (List.range (leAt b 0x10 4)).all (coreEntryOk b) &&
    (let cores := imageCores b
     coresDistinct cores && (List.range (leAt b 0xE 2)).all (groupOk b cores) &&
       (List.range (leAt b 0x50 4)).all (relocOk b cores)) && digestOk b

/-! ## Binding (R198, R373) -/

/-- FEATURES of the installed licence (Table 12.12): 0 service ports, 1 in-network reduction, 2 KS64 far-axis transport. -/
def State.feature (s : State) (i : Nat) : Bool := s.rbit rMgtLic i

/-- The licence does not grant a tier, a number of packages or FLAGS (R173). -/
def State.lacks (s : State) (n : Nat × Nat × Nat) : Bool :=
  decide (s.fld rMgtLic 62 2 < n.1) || decide (s.fld rMgtLic 32 16 < n.2.1) || (n.2.2 % 2 == 1 && !s.feature 2) ||
    (n.2.2 / 2 % 2 == 1 && !s.feature 0)

/-- What an image asks for. -/
def imageNeeds (b : List Byte) : Nat × Nat × Nat := (leAt b 0x16 1, leAt b 0x14 2, leAt b 6 2)

/-- The image box fits the system (R198). -/
def State.boxFits (s : State) (b : List Byte) : Bool :=
  let e := s.extents
  let one := fun i (ext : Nat) =>
    let n := leAt b (0x18 + 2 * i) 2
    decide (n ≤ ext) && (leAt b 6 2 / 2 ^ (2 + i) % 2 == 0 || n == ext)
  one 0 e.x && one 1 e.y && one 2 e.z

/-- The image package index of this package under a base coordinate; none where it lies outside the image box. -/
def State.imageIndex (s : State) (b : List Byte) (base : Coord) : Option Nat :=
  let e := s.extents
  let rel := fun (c o ext : Nat) => (c + ext - o % ext) % ext
  let (x, y, z) := (rel s.coord.x base.x e.x, rel s.coord.y base.y e.y, rel s.coord.z base.z e.z)
  let (sx, sy, sz) := (leAt b 0x18 2, leAt b 0x1A 2, leAt b 0x1C 2)
  if x < sx ∧ y < sy ∧ z < sz then some (x + sx * (y + sy * z)) else none

/-- A local core may be launched: mapped, STOPPED, and with no launch of its own. -/
def State.launchable (s : State) (c : CoreAddr) : Bool :=
  let k := s.core c
  (s.phys c).isSome && k.st == .stopped && k.launch.isNone && !k.failFence

/-- Relocations with the endpoint IDs of EPMAP. -/
def boundRelocs (b ep : List Byte) : List RelocEnt :=
  (List.range (leAt b 0x50 4)).map fun i =>
    let o := entryAt b 0x48 8 i
    ⟨leAt b o 4, leAt b (o + 4) 2, leAt ep (4 * leAt b (o + 6) 2) 4⟩

/-- EPMAP covers every EPX, with bits [31:19] zero. -/
def epmapOk (b ep : List Byte) (n : Nat) : Bool :=
  (List.range (leAt b 0x50 4)).all (fun i => decide (leAt b (entryAt b 0x48 8 i + 6) 2 < n)) &&
    (List.range n).all fun i => decide (leAt ep (4 * i) 4 < 0x80000)

/-- The groups of a list of cores, ascending. -/
def groupsOf (l : List CoreEnt) : List Nat := ascending (l.map CoreEnt.group)

/-- Free group slots, ascending. -/
def State.freeSlots (s : State) : List Nat := (List.range 64).filter fun g => !s.rbit (rSgCfg g) 63

/-! ## Loading (R174, R178, R186, R199, R200) -/

/-- Sets up the slot of group `g` of the image. -/
def State.openGroup (s : State) (b : List Byte) (l : Launch) (slot g : Nat) : State :=
  let o := entryAt b 0x30 32 g
  let cfg := setField (setField (setField (setField (setField 0 63 1 1) 60 3 (leAt b (o + 2) 1)) 56 4 l.ctx.val) 32 16 (leAt b o 2)) 0 32
    (leAt b (o + 16) 4)
  let grp : Group :=
    { ring := l.ring, idx := l.idx, ctx := l.ctx, t0 := l.t0, limitCore := l.limitCore, scope := leAt b (o + 2) 1
      spans := imageSpans b g, members := (l.cores.filter fun e => e.group == g).map fun e => (e.pkg, e.core), me := l.me
      held := [], full := 0, barrier := 0 }
  ((((((s.setReg (rSgCfg slot) cfg).setReg (rSgStat slot) (setField 0 60 4 1)).setReg (rSgSlip slot) 0).setReg (rSgWho slot) 0).setReg
    (rSgWhat slot) 0)).setGroup slot grp

/-- Loads a local core: its code region, its initial record, its place at the launch barrier. -/
def State.loadCore (s : State) (b : List Byte) (l : Launch) (slot : Nat) (i : Nat) (e : CoreEnt) : State :=
  let rec0 : SpanRec := { span := 0, next := BitVec.ofNat 16 e.entry, stamp := s.ftc, s := [], p := [], q := [], valid := true }
  let s := s.setStore e.core { CoreStore.reset with rec0 := rec0 }
  let s := s.modCore e.core fun k =>
    { k with
      st := .barrier, s := [], p := [], q := [], floor := setField 0 0 12 l.floor, code := e.codeWord, atLaunch := true, stop := false
      next := BitVec.ofNat 16 e.entry, spanIdx := 0, span := 0, replaying := false, throttled := false, failFence := false
      limitUsed := false, measOk := false, rated := false, rate := setField k.rate 32 16 0, waitBeats := 0, launch := some (l.ring, l.idx), group := slot, ctx := l.ctx.val }
  s.writeCode e.core l.ctx.val (e.base * 0x10000) (e.size * 16) (boundBlob (leAt b e.code (e.size * 0x10000)) l.relocs i)

/-- The route seed and box of the context, for the duration of the launch; a box larger than the system is written as the whole
system. -/
def State.installRoutes (s : State) (b : List Byte) (ctx : Fin 16) (base : Nat) : State :=
  let x := setField (setField (setField (setField (s.reg (rCtxBox ctx.val)) 60 4 (leAt b 0x18 2 - 1)) 56 4 (leAt b 0x1A 2 - 1)) 49 7
    (leAt b 0x1C 2 - 1)) 0 15 base
  let s := (s.setReg (rCtxSeed ctx.val) (BitVec.ofNat 64 (leAt b 0x20 8))).setReg (rCtxBox ctx.val) x
  { s with fab := { s.fab with ctxDiff := s.fab.ctxDiff.filter fun n => n != ctx } }

/-- The local cores of an image, with their core-table indices. -/
def localEntries (l : Launch) : List (Nat × CoreEnt) :=
  (l.cores.zipIdx.filter fun e => e.1.pkg == l.me).map fun e => (e.2, e.1)

/-- Loads every local core; each then arrives at its launch barrier. -/
def State.load (s : State) (b : List Byte) (l : Launch) : State :=
  let mine := localEntries l
  let slots := (groupsOf (mine.map Prod.snd)).zip s.freeSlots
  let slotOf := fun g => ((slots.find? fun x => x.1 == g).map Prod.snd).getD 0
  let s := slots.foldl (fun s x => s.openGroup b l x.2 x.1) { s with launches := s.launches ++ [l] }
  let s := mine.foldl (fun s x => s.loadCore b l (slotOf x.2.group) x.1 x.2) s
  mine.foldl (fun s x => s.sendArrival x.2.core true) s

/-- A LAUNCH is refused: it completes with a status and loads no core. -/
def State.refuseCmd (s : State) (ring : Nat) (idx : BitVec 32) (st : BitVec 8) : State := s.modCmd ring idx fun c => c.finish st

/-- Reads the image of a LAUNCH: its header tells its length. -/
def State.readImage (s : State) (p : Fin 4) (ctx ca : Nat) : State × Except (BitVec 8) (List Byte) :=
  match s.ctxBytes p ctx ca 0x100 with
  | (s, .error e) => (s, .error e)
  | (s, .ok h) => if leAt h 0x58 8 < 0x100 then (s, .error stConfig) else s.ctxBytes p ctx ca (leAt h 0x58 8)

/-- The launch that a descriptor makes of an image on package `me` of it. -/
def newLaunch (ring : Nat) (idx : BitVec 32) (ctx : Fin 16) (part : Fin 4) (d : BitVec 1024) (b ep : List Byte) (me : Nat) : Launch :=
  { ring := ring, idx := idx, ctx := ctx, me := me, t0 := dsc d 0x18 8, seed := BitVec.ofNat 64 (leAt b 0x20 8)
    limitCore := leAt b 0x28 8, cores := imageCores b, relocs := boundRelocs b ep, image := dsc d 0x10 8, part := part
    floor := leAt b 0xC 2, needs := imageNeeds b, saturated := false, overran := false, status := none }

/-- Binds and loads an image whose bytes have been read (R173, R198, R373). A package outside the image has no core to load
(DEDUCED). -/
def State.bindImage (s : State) (ring : Nat) (idx : BitVec 32) (ctx : Fin 16) (part : Fin 4) (d : BitVec 1024) (b : List Byte) : State :=
  let no := fun (s : State) st => s.refuseCmd ring idx st
  if !imageOk b then no s stConfig
  else if s.lacks (imageNeeds b) then no s stLicence
  else if !s.boxFits b then no s stConfig
  else
    let base := coordOf (BitVec.ofNat 15 (dsc d 0x20 2))
    let me := (s.imageIndex b base).getD (leAt b 0x14 2)
    let n := dsc d 0x24 4
    match (if n = 0 then (s, .ok []) else s.ctxBytes part ctx.val (dsc d 0x28 8) (4 * n)) with
    | (s, .error e) => no s e
    | (s, .ok ep) =>
      let l := newLaunch ring idx ctx part d b ep me
      let mine := (localEntries l).map Prod.snd
      if !(mine.all fun e => s.launchable e.core) || !epmapOk b ep n then no s stConfig
      else if s.freeSlots.length < (groupsOf mine).length then no s stQuota
      else ((s.installRoutes b ctx (dsc d 0x20 2)).load b l).settle

/-- Starts a LAUNCH. -/
def State.startLaunch (s : State) (ring : Nat) (idx : BitVec 32) (ctx : Fin 16) (part : Fin 4) (d : BitVec 1024) : State :=
  match s.readImage part ctx.val (dsc d 0x10 8) with
  | (s, .error e) => s.refuseCmd ring idx e
  | (s, .ok b) => s.bindImage ring idx ctx part d b

end Sys2Proof.Machine
end

