-- ==== Sys2Proof/Machine/Power.lean ====
section
/-! DEFINITION. The load envelope, the Power Governor, thermal control, and the loss of rails (Power, load envelope and thermal control,
R387 to R414; Lands, signals and electrical ratings, R540 to R544). Powers inside the governor are in units of 0.1 mW, so that a ramp of
n W/s is n units in a step of 100 µs. -/

namespace Sys2Proof.Machine

def State.modGov (s : State) (f : Gov → Gov) : State := { s with sys := { s.sys with gov := f s.sys.gov } }

def State.modPins (s : State) (f : Pins → Pins) : State := { s with sys := { s.sys with pins := f s.sys.pins } }

def State.modBoot (s : State) (f : Boot → Boot) : State := { s with sys := { s.sys with boot := f s.sys.boot } }

/-! ## Alerts (Table 11.12) -/

def alHbLost : Nat := 0
def alThermWarn : Nat := 1
def alLeak : Nat := 2
def alLeakFault : Nat := 3
def alSensor : Nat := 4
def alRailLoss : Nat := 5
def alAvsFault : Nat := 6
def alHoistBreach : Nat := 7
def alEmergShort : Nat := 8
def alCeilShort : Nat := 9
def alThermDrop : Nat := 10
def alExcursion : Nat := 11

def State.alert (s : State) (i : Nat) : State := s.setRBit rPwrAlert i true

/-- Sets an alert where `b` holds. -/
def State.alertIf (s : State) (b : Bool) (i : Nat) : State := if b then s.alert i else s

/-- PWR_ALERT_N is asserted: an unmasked alert is set, or a power cycle is requested (Tables 11.12, 13.13). Without VAUX, rail 11,
it is off, as is every output (Table 11.1, R530). -/
def State.pwrAlert (s : State) : Bool :=
  !s.sys.boot.lost.contains 11 && (s.rbit rMgtRst 62 || (s.reg rPwrAlert &&& s.reg rPwrAlertMask) != 0)

/-- THERMTRIP_N is asserted (R542). -/
def State.thermTrip (s : State) : Bool := s.sys.pins.shut && !s.sys.boot.lost.contains 11

/-! ## The envelope (R391 to R393, R413) -/

def Envelope.ceil (e : Envelope) : Nat := fieldN e.lim 48 16
def Envelope.pfloor (e : Envelope) : Nat := fieldN e.lim 32 16
def Envelope.target (e : Envelope) : Nat := fieldN e.lim 16 16
def Envelope.win (e : Envelope) : Nat := fieldN e.lim 0 16
def Envelope.up (e : Envelope) : Nat := fieldN e.ramp 48 16
def Envelope.down (e : Envelope) : Nat := fieldN e.ramp 32 16
def Envelope.slots (e : Envelope) : Bool := bit e.hoist 63
def Envelope.period (e : Envelope) : Nat := fieldN e.hoist 32 24
def Envelope.len (e : Envelope) : Nat := fieldN e.hoist 8 24

/-- What the staging registers hold. -/
def State.staged (s : State) : Envelope := ⟨s.reg rPwrEnvLim, s.reg rPwrEnvRamp, s.reg rPwrEnvHoist, s.reg rPwrEnvHoistAt⟩

/-- The checks of R391. -/
def Envelope.ok (e : Envelope) : Bool :=
  decide (550 ≤ e.ceil ∧ e.ceil ≤ 4000) && decide (550 ≤ e.pfloor ∧ e.pfloor ≤ e.ceil) &&
    decide (e.target = 0 ∨ (e.pfloor ≤ e.target ∧ e.target ≤ e.ceil)) && decide (10 ≤ e.up ∧ e.up ≤ 40000) &&
    decide (10 ≤ e.down ∧ e.down ≤ 40000) && decide (10 ≤ e.win ∧ e.win ≤ 10000) &&
    (!e.slots || decide (e.len ≠ 0)) && decide (e.period = 0 ∨ e.len ≤ e.period)

/-- The envelope committed last. -/
def Gov.committed (g : Gov) : Envelope := g.next.getD g.env

/-- What R413 forbids while the heartbeat is lost. -/
def Envelope.raises (new old : Envelope) : Bool :=
  decide (old.ceil < new.ceil ∨ old.pfloor < new.pfloor ∨ old.target < new.target ∨ old.up < new.up ∨ old.down < new.down) ||
    new.slots != old.slots || new.period != old.period || new.len != old.len || new.hoistAt != old.hoistAt

def State.hbLost (s : State) : Bool := s.rbit rPwrAlert alHbLost

/-- WRITER of a source (Table 11.10). -/
def writerCode : RegSource → Nat
  | .i3c => 1
  | .fabricMgr => 2
  | .mgmtCore => 3
  | _ => 0

/-- COMMIT: the staged envelope is taken at the next governor step, or ERR is set and nothing changes. -/
def State.commitEnv (s : State) (src : RegSource) : State :=
  let e := s.staged
  if e.ok && !(s.hbLost && e.raises s.sys.gov.committed) then
    (((s.setRBit rPwrEnvCtl 62 false).setFld rPwrEnvCtl 60 2 (writerCode src)).modReg rPwrEnvCtl fun x => bumpWrap x 0 32).modGov
      fun g => { g with next := some e }
  else s.setRBit rPwrEnvCtl 62 true

/-- The unit of H in a watt. -/
def perWatt : Nat := 10000

/-- The emergency cut (R400). -/
def State.emergCut (s : State) : State :=
  if s.rbit rPwrEnvCtl 59 then
    let fp := s.fld rPwrStat 0 16 * perWatt
    let lvl := s.fld rPwrEnvCtl 32 16 * perWatt
    let s := s.modGov fun g =>
      let h := min g.h (max lvl fp)
      { g with h := h, cap := min g.cap h }
    (s.setFld rPwrStat 48 16 (s.sys.gov.h / perWatt)).alertIf (decide (lvl < fp)) alEmergShort
  else s

/-- A write of PWR_ENV_CTL. EMERG takes effect on the write. -/
def State.envCtlWrite (s : State) (src : RegSource) (v : Word) : State :=
  let s := (s.mergeReg rPwrEnvCtl v).emergCut
  if bit v 63 then s.commitEnv src else s

/-- COMMIT. -/
def execCommit (src : RegSource) (v : Word) (s : State) : Answer := .next (s.onWrite src rPwrEnvCtl fun s => s.envCtlWrite src v)

/-- EMERG. -/
def execEmerg (src : RegSource) (v : Word) (s : State) : Answer := .next (s.onWrite src rPwrEnvCtl fun s => s.envCtlWrite src v)

/-! ## The heartbeat (R413) -/

/-- A write of PWR_HB. -/
def State.hbWrite (s : State) (v : Word) : State :=
  if bit v 0 then (s.modGov fun g => { g with hbAt := s.now }).setRBit rPwrAlert alHbLost false else s

/-- BEAT. -/
def execBeat (src : RegSource) (v : Word) (s : State) : Answer := .next (s.onWrite src rPwrHb fun s => s.hbWrite v)

/-- The governor has control (R394, R409, R414). -/
def State.governs (s : State) : Bool := s.phase == phReady && !s.sys.pins.shut && !s.sys.pins.isolated && !s.sys.pins.stopped

/-- HEARTBEAT_LOST. -/
def execHeartbeatLost (s : State) : Answer :=
  .next (if s.phase == phReady && decide (s.sys.gov.hbAt + 2000000000 ≤ s.now) then s.alert alHbLost else s)

/-- Milliseconds since a time, held at the largest value of a 32-bit field. -/
def State.ageMs (s : State) (since : Nat) : Nat := min ((s.now - since) / 1000000) 0xFFFFFFFF

/-- PWR_HB as it reads. -/
def State.hbReg (s : State) : Word := BitVec.ofNat 64 (s.ageMs s.sys.gov.hbAt * 2 ^ 32)

/-! ## Setpoints (R389, R390, R398) -/

/-- The setpoint in force of an AVSBus rail: 0.75 V before the first is sent (R540). -/
def State.setpoint (s : State) (rail : Nat) : Nat :=
  let v := s.fld (rPwrRail rail) 48 16
  if v = 0 then 750 else v

/-- STATE of a rail whose regulator has faulted (Table 11.14). -/
def railFault : Nat := 3

/-- Sends a setpoint, in mV, unless the rail's regulator has faulted. -/
def State.setVcore (s : State) (rail mv : Nat) : State :=
  if s.fld (rPwrRail rail) 0 4 = railFault then s else (s.setFld (rPwrRail rail) 48 16 mv).emit (.avsSet rail mv)

/-- Lowers VCORE of the partitions that R398 lets fall further, by one step of 5 mV. -/
def State.shedVcore (s : State) (bound : List (Fin 4)) : State :=
  allParts.foldl (fun s p =>
    if !bound.contains p && decide (605 ≤ s.setpoint p.val) then s.setVcore p.val (s.setpoint p.val - 5) else s) s

/-- With D no more than H the manual says nothing of VCORE: whether a setpoint rises by a step, up to 0.85 V, is free. -/
def State.relaxVcore (s : State) : State :=
  allParts.foldl (fun s p =>
    if s.setpoint p.val < 850 then
      let up := Config.raiseVcore s.freeCtr
      if up then s.draw.setVcore p.val (s.setpoint p.val + 5) else s.draw
    else s) s

/-! ## The governor step (R395 to R404) -/

/-- `now` and FTC against the hoist slots in force (R396). -/
def State.slotOpen (s : State) (e : Envelope) : Bool :=
  let k := s.ftc.toNat - e.hoistAt.toNat
  e.slots && decide (e.hoistAt.toNat ≤ s.ftc.toNat) &&
    decide ((if e.period = 0 then k else k % (e.period * 1000000)) < e.len * 1000000)

/-- A commit takes effect. One that takes EN from 0 to 1 sets the cap to the present H. -/
def Gov.takeCommit (g : Gov) : Gov :=
  match g.next with
  | some e => { g with env := e, next := none, cap := if e.slots && !g.env.slots then g.h else g.cap }
  | none => g

/-- The demands of the window with the present one. -/
def Gov.seen (g : Gov) (now d : Nat) : List (Nat × Nat) :=
  (now, d) :: (g.peaks.filter fun e => decide (d < e.2)).filter fun e => decide (now < e.1 + g.env.win * 1000000)

/-- Peak demand over the window. -/
def peakOf (l : List (Nat × Nat)) : Nat := (l.map Prod.snd).foldl max 0

/-- H and the cap after a step. -/
def Gov.climb (g : Gov) (i : GovInputs) (emerg : Option Nat) (lost isOpen : Bool) : Gov :=
  let e := g.env
  let peaks := g.peaks
  let goal := min (max (max (peakOf peaks) e.target) e.pfloor) e.ceil * perWatt
  let g := match emerg with
    | some lvl =>
      let h := min g.h (max lvl (i.floorp * perWatt))
      { g with h := h, cap := min g.cap h }
    | none =>
      if g.h < goal ∧ lost = false then
        let lim := if e.slots && !isOpen then g.cap else e.ceil * perWatt
        { g with h := max g.h (min (min goal lim) (g.h + min e.up i.slopeUp)) }
      else if goal < g.h then { g with h := max goal (g.h - min e.down i.slopeDown) }
      else g
  if e.slots && isOpen then { g with cap := g.h } else g

/-- A core on whose pipes the governor may place fill (R402, R403). -/
def State.mayFill (s : State) (hot : Option CoreAddr) (c : CoreAddr) : Bool :=
  let k := s.core c
  (s.phys c).isSome && (k.st == .stopped || k.st == .barrier || (k.st == .run && k.fill)) &&
    match hot with
    | some x => !(x.p == c.p && x.c == c.c)
    | none => true

/-- Places load fill of `w` units. The manual leaves to the firmware's tables how much each core takes: the amounts are free. -/
def State.placeFill (s : State) (hot : Option CoreAddr) (w : Nat) : State :=
  let ctr := s.freeCtr
  let s' := allCores.foldl (fun s c =>
    let a := if w ≠ 0 ∧ s.mayFill hot c = true then (Config.fillAmount ctr (coreIdx c)).val else 0
    if (s.core c).fillAmt = a then s else s.modCore c fun k => { k with fillAmt := a }) s
  if w = 0 then s' else s'.draw

/-- The core of the highest prediction; of equals, the one with the lowest packed address. -/
def hottest : List (CoreAddr × Nat) → Option (CoreAddr × Nat)
  | [] => none
  | x :: r => match hottest r with
    | none => some x
    | some y =>
      if x.2 < y.2 ∨ (x.2 = y.2 ∧ (packCore y.1).toNat < (packCore x.1).toNat) then some y else some x

/-- LIMIT of a core a step lower (R406). -/
def Core.slower (k : Core) : Core :=
  let lim := fieldN k.beatLim 0 12
  let first := if k.rated then fieldN k.rate 0 12 / 50 * 50 - 50 else 2250
  { k with beatLim := setField k.beatLim 0 12 (max 50 (if lim = 0 then first else lim - 50)) }

/-- Records that a core's limit fell below its floor in this span (R174, R181). -/
def Core.noteLimit (k : Core) : Core :=
  if (k.st == .run || k.st == .barrier) && k.limited then { k with throttled := true } else k

/-- The governor acts on one core (R401, R406). -/
def State.slowCore (s : State) (c : CoreAddr) : State := s.modCore c fun k => k.slower.noteLimit

def State.throtT (s : State) : Nat := s.fld rThmCfg 56 8
def State.hbmT (s : State) : Nat := s.fld rThmCfg 48 8

/-- Full admission of a stack. -/
def fullRate : Nat := 0x1000000

/-- The admission of a stack after a step in which its prediction is `t` (R407). -/
def State.slowStack (s : State) (p : Fin 4) (n : Nat) : State :=
  s.modPart p fun x =>
    let rate := fullRate - mget (fun _ => 0) x.hbmCut n
    { x with hbmCut := mput (fun _ => 0) x.hbmCut n (fullRate - max (rate * 7 / 8) (fullRate / 8)) }

def State.freeStack (s : State) (p : Fin 4) (n : Nat) : State :=
  s.modPart p fun x => { x with hbmCut := mput (fun _ => 0) x.hbmCut n (mget (fun _ => 0) x.hbmCut n - fullRate / 8) }

/-- Units under R406 or R407. -/
def State.slowUnits (s : State) : Nat :=
  (allCores.filter fun c => fieldN (s.core c).beatLim 0 12 != 0).length +
    (allParts.map fun p => (s.part p).hbmCut.length).foldl (· + ·) 0

/-- Sensors that are suspect or failed. -/
def State.badSensors (s : State) : Nat := ((List.range 160).filter fun n => s.fld (rThmSens n) 46 2 != 0).length

/-- The unit of the highest prediction as THM_STAT names it: PRED, KIND and UNIT. -/
def predUnit (i : GovInputs) : Nat × Nat × Nat :=
  let c : Nat × Nat × Nat := match hottest i.corePred with
    | some (c, t) => (t, 0, (packCore c).toNat)
    | none => (0, 0, 0)
  i.hbmPred.foldl (fun b e => if b.1 < e.2 then (e.2, 1, e.1.1.val * 8 + e.1.2.val) else b) c

/-- THM_STAT. -/
def State.showThermal (s : State) (i : GovInputs) : State :=
  let u := predUnit i
  let x := setField (setField (setField (setField 0 56 8 (min i.hot 255)) 48 8 (min u.1 255)) 40 8 (min i.unc 255)) 32 8 i.slope.toNat
  s.setReg rThmStat (setField (setField (setField (setField x 31 1 u.2.1) 16 15 u.2.2) 8 8 (min s.badSensors 255)) 0 8
    (min s.slowUnits 255))

/-- The flags of a floor hold, and whether it is one (R399): D exceeds H, and FLOORP exceeds H. -/
def State.floorHold (s : State) (i : GovInputs) (lost isOpen : Bool) : State × Bool :=
  let g := s.sys.gov
  if g.h < i.demand * perWatt ∧ g.h < i.floorp * perWatt then
    let breach := lost || (g.env.slots && !isOpen && decide (g.cap ≤ g.h))
    let s := s.alertIf breach alHoistBreach
    (s.alertIf (decide (g.env.ceil * perWatt ≤ g.h)) alCeilShort, true)
  else (s, false)

/-- Throttling of a step: the hottest core above THROT_T, or, with floor power above 4,000 W, the hottest core; and stacks above
HBM_T (R401, R406, R407). A core that cannot keep its floor at 0.85 V counts as limited. -/
def State.throttle (s : State) (i : GovInputs) (hold : Bool) : State :=
  let warm := (i.corePred.any fun e => decide (s.throtT < e.2)) || i.hbmPred.any fun e => decide (s.throtT < e.2)
  let s := s.alertIf warm alThermWarn
  let s := match hottest i.corePred with
    | some (c, t) => if s.throtT < t ∨ (hold = true ∧ 4000 < i.floorp) then s.slowCore c else s
    | none => s
  let s := i.slowCores.foldl (fun s c => s.modCore c fun k =>
    if k.st == .run || k.st == .barrier then { k with throttled := true } else k) s
  i.hbmPred.foldl (fun s e => if s.hbmT < e.2 then s.slowStack e.1.1 e.1.2.val else s) s

/-- The unit that R406 keeps fill away from. -/
def State.hotUnit (s : State) (i : GovInputs) : Option CoreAddr :=
  match hottest i.corePred with
  | some (c, t) => if s.throtT < t then some c else none
  | none => none

/-- A governor step. -/
def State.govern (s : State) (i : GovInputs) : State :=
  let now := s.now
  let s := s.modGov fun g => g.takeCommit
  let e := s.sys.gov.env
  let isOpen := s.slotOpen e
  let lost := s.hbLost
  let lvl := s.fld rPwrEnvCtl 32 16 * perWatt
  let emerg := s.rbit rPwrEnvCtl 59
  let s := s.modGov fun g =>
    { g with stepAt := now, peaks := g.seen now i.demand }.climb i (if emerg then some lvl else none) lost isOpen
  let s := s.alertIf (emerg && decide (lvl < i.floorp * perWatt)) alEmergShort
  let h := s.sys.gov.h
  let d := i.demand * perWatt
  let s := s.alertIf (decide (i.fillMax * perWatt < h - d)) alThermDrop
  let s := s.placeFill (s.hotUnit i) (min (h - d) (i.fillMax * perWatt))
  let s := if h < d then s.shedVcore i.vcoreAtFloor else s.relaxVcore
  let r := s.floorHold i lost isOpen
  let s := if emerg then s else r.1
  let s := s.alertIf (decide (e.ceil < i.power) && !r.2) alExcursion
  let stat := setField (setField (setField (setField 0 48 16 (h / perWatt)) 32 16 i.power) 16 16 i.demand) 0 16 i.floorp
  ((s.setReg rPwrStat stat).throttle i r.2).showThermal i

/-- GOVERNOR_STEP. -/
def execGovernorStep (inp : GovInputs) (s : State) : Answer :=
  .next (if s.governs && decide (s.sys.gov.stepAt + 100000 ≤ s.now) then s.govern inp else s)

/-- LIMIT of a core that has cooled (R406). -/
def Core.faster (k : Core) : Core :=
  let lim := fieldN k.beatLim 0 12
  if lim = 0 then k else { k with beatLim := setField k.beatLim 0 12 (if 2300 < lim + 50 then 0 else lim + 50) }

/-- THROTTLE_RELEASE. -/
def execThrottleRelease (inp : GovInputs) (s : State) : Answer :=
  .next (if s.governs && decide (s.sys.gov.relAt + 1000000 ≤ s.now) then
    let s := s.modGov fun g => { g with relAt := s.now }
    let s := inp.corePred.foldl (fun s e => if e.2 + 2 < s.throtT then s.modCore e.1 Core.faster else s) s
    let s := inp.hbmPred.foldl (fun s e => if e.2 + 2 < s.hbmT then s.freeStack e.1.1 e.1.2.val else s) s
    s.setFld rThmStat 0 8 (min s.slowUnits 255)
  else s)

/-! ## AVSBus (R389, R390) -/

/-- AVS_READ: voltage and current of VCORE0-3, VSRAM and VMEM0-3. -/
def execAvsRead (volts amps : List (BitVec 16)) (s : State) : Answer :=
  .next (if s.phase != phPor && decide (s.sys.gov.avsAt + 100000 ≤ s.now) then
    (List.range 9).foldl (fun s n =>
      if s.fld (rPwrRail n) 0 4 = railFault then s
      else s.modReg (rPwrRail n) fun x => setField (setField x 32 16 (volts.getD n 0).toNat) 16 16 (amps.getD n 0).toNat)
      (s.modGov fun g => { g with avsAt := s.now })
  else s)

/-- AVS_FAULT. -/
def execAvsFault (rail : Fin 9) (s : State) : Answer :=
  .next ((s.setFld (rPwrRail rail.val) 0 4 railFault).alert alAvsFault)

/-! ## Coolant, leaks and sensors (R410 to R412) -/

/-- A write of THM_COOL. -/
def State.coolWrite (s : State) (v : Word) : State := (s.mergeReg rThmCool v).modGov fun g => { g with coolAt := some s.now, coolStale := false }

/-- COOLANT_WRITE. -/
def execCoolantWrite (src : RegSource) (v : Word) (s : State) : Answer := .next (s.onWrite src rThmCool fun s => s.coolWrite v)

/-- AGE of THM_COOL. -/
def State.coolAge (s : State) : Nat := match s.sys.gov.coolAt with | some t => s.ageMs t | none => 0xFFFFFFFF

/-- COOLANT_AGE_EXPIRY. -/
def execCoolantAgeExpiry (s : State) : Answer := .next (if 1000 < s.coolAge then s.modGov fun g => { g with coolStale := true } else s)

/-- The coolant inlet, in °C, and the flow, in 0.1 L/min, that the thermal model uses (R411, Table 16.7). -/
def State.coolant (s : State) : Nat × Nat :=
  if s.sys.gov.coolStale || s.sys.gov.coolAt.isNone then (45, 30) else (s.fld rThmCool 56 8, s.fld rThmCool 32 16)

/-- The state of the leak loop (Table 11.4; at a bound two rows share, log entry 53). -/
def leakState (ohms : Nat) : Nat := if ohms < 100 then 3 else if ohms < 5000 then 1 else if ohms ≤ 20000 then 0 else 2

/-- The alert of a state accepted. -/
def State.leakAlert (s : State) (st : Nat) : State := if st = 1 then s.alert alLeak else if st = 0 then s else s.alert alLeakFault

/-- LEAK_SAMPLE. -/
def execLeakSample (ohms : BitVec 32) (s : State) : Answer :=
  let st := leakState ohms.toNat
  let s := if s.sys.gov.leak = st then s else s.modGov fun g => { g with leak := st, leakAt := s.now }
  let s := s.setFld rThmLeak 0 32 ohms.toNat
  .next (if s.sys.gov.leakAt + 30000000 ≤ s.now then (s.setFld rThmLeak 60 4 st).leakAlert st else s.leakAlert (s.fld rThmLeak 60 4))

/-- STATE of THM_SENS_n (Table 11.19). -/
def senGood : Nat := 0
def senSuspect : Nat := 1
def senFailed : Nat := 2

/-- A sensor that is not good keeps its state; SENSOR is set. -/
def State.sensorBad (s : State) (n st : Nat) : State :=
  (s.setFld (rThmSens n) 46 2 (max st (s.fld (rThmSens n) 46 2))).alert alSensor

/-- SENSOR_SUSPECT: a reading of a sensor against the model's value. -/
def execSensorSuspect (n : Fin 160) (answered : Bool) (reading : BitVec 8) (negative : Bool) (model : BitVec 8) (s : State) : Answer :=
  let low := mget (fun _ => 0) s.sys.gov.low n.val
  let s := s.modReg (rThmSens n.val) fun x =>
    setField (setField x 56 8 (if answered && !negative then reading.toNat else 0)) 48 8 model.toNat
  let keep := fun (s : State) (t : Option Nat) => s.modGov fun g =>
    { g with low := (match t with | some v => mput (fun _ => 0) g.low n.val (v + 1) | none => mput (fun _ => 0) g.low n.val 0) }
  .next (if !answered || negative || decide (150 < reading.toNat) then (keep s none).sensorBad n.val senFailed
  else if reading.toNat + 8 < model.toNat then
    let since := if low = 0 then s.now else low - 1
    let s := keep s (some since)
    if since + 50000000 ≤ s.now then s.sensorBad n.val senSuspect else s
  else keep s none)

/-- The temperature of a sensor in every use (R410). -/
def State.sensorTemp (s : State) (n : Nat) : Nat :=
  let r := s.fld (rThmSens n) 56 8
  let m := s.fld (rThmSens n) 48 8
  let st := s.fld (rThmSens n) 46 2
  if st = senFailed ∨ (st = senSuspect ∧ r ≤ m) then m + 5 else r

/-- HBM_TEMP_READ. -/
def execHbmTempRead (p : Fin 4) (temps : List (BitVec 8)) (s : State) : Answer :=
  .next ((List.range 6).foldl (fun s n => match temps[n]? with | some t => s.setFld (rHbmStat p n) 56 8 t.toNat | none => s) s)

/-! ## Stopping the package (Table 11.1, R409, R414) -/

/-- Every optical transmitter turns dark: each port that is up fails. A port that drops its packets (`drop`) does not replay them
(R309). -/
def State.darkPorts (s : State) (st cause : Nat) (drop : Bool) : State :=
  let live := (List.range 36).filter fun n => s.portUp n || s.portState n == portStateDraining || s.portState n == portStateTraining
  let l := if drop then List.range 36 else live
  let s := l.foldl (fun s n => s.showPort n st 0 cause) s
  if drop then (List.range 36).foldl (fun s n => s.modPort n fun x => { x with replay := [], resync := none, flits := [] }) s
  else l.foldl (fun s n => s.startResync n) s

/-- Fences every partition until a reset of the package. -/
def State.fenceParts (s : State) : State :=
  allParts.foldl (fun s p => (s.fenceDomain (.partition p)).modPart p fun x => { x with fenced := true }) s

/-- Stops all load fill. -/
def State.stopFill (s : State) : State :=
  allCores.foldl (fun s c =>
    if (s.core c).fill || (s.core c).fillAmt != 0 then s.modCore c fun k => { k with fill := false, fillAmt := 0 } else s) s

/-- Fences, sheds and darkens: what a shutdown and an isolation share. -/
def State.halt (s : State) : State :=
  allParts.foldl (fun s p => s.setVcore p.val 600) s.fenceParts.stopFill

/-- The package shuts down (R409, R542). -/
def State.shutdown (s : State) (cause sensor temp : Nat) : State :=
  let x := setField (setField (setField (setField (setField 0 63 1 1) 60 3 cause) 48 8 sensor) 40 8 temp) 0 32 (s.fld rObsPtc 0 32)
  (((s.setReg rThmTrip x).modPins fun p => { p with shut := true }).darkPorts portStateFailed lcLock false).halt

/-- THERMAL_SHUTDOWN: a condition of Table 11.3 holds. -/
def execThermalShutdown (model : Bool) (sensor : Fin 160) (temp : BitVec 8) (unc : BitVec 8) (s : State) : Answer :=
  .next (if s.sys.pins.shut || s.phase == phPor then s
  else if model && decide (118 + unc.toNat < temp.toNat) then s.shutdown 2 0 temp.toNat
  else if !model && decide (120 ≤ temp.toNat) then s.shutdown 1 sensor.val temp.toNat
  else s)

/-- ISOLATE_N (R309, R414, R543). -/
def execIsolateN (asserted : Bool) (s : State) : Answer :=
  let s := s.modPins fun p => { p with isolate := asserted }
  .next (if asserted && !s.sys.pins.isolated then
    ((s.modPins fun p => { p with isolated := true }).darkPorts portStateDark lcIsolated true).halt
  else s)

/-! ## Rails (R387, R388, R418, R540) -/

def railVsram : Nat := 4
def railVio : Nat := 9
def railVopt : Nat := 10
def railVaux : Nat := 11

/-- Returns to power-on reset: every output goes off (R388, R418). -/
def State.toPor (s : State) : State :=
  let s := ({ s with resets := [] }.outputsOff.setPhase phPor 0).setFld rMgtBoot 52 4 0
  let s := [0, 1].foldl (fun s (d : Fin 2) => s.setFld (rHstPcie d) 60 4 0) s
  s.modBoot fun b => { b with porAt := s.now, inited := false, verified := false, relink := true, due := false, known := [] }

/-- A register after a power cycle: sticky bits stay (Table 13.4). -/
def cycledReg (a : Nat) (x : Word) : Word :=
  let st := match regRow a with | some r => r.sticky | none => 0
  if a = rMgtUpdStat then x else if decide (0xF000000 ≤ a) then resetOf a else (x &&& st) ||| (resetOf a &&& ~~~st)

/-- Every rail other than VAUX has gone: what Table 13.4 lists as lost is lost. -/
def State.powerCycle (s : State) : State :=
  let s := s.regs.foldl (fun t e => t.setReg e.1 (cycledReg e.1 (s.reg e.1))) s
  { s with
    cores := [], stores := [], cnt := [], mem := .reset, parts := [], fab := .reset, colls := []
    launches := [], groups := [], barNet := [], host := .reset, resets := [], ftc := 0
    sys := { s.sys with
      sync := SysSt.reset.sync, notices := [], record := [], dump := none, pair := .reset, bst := ⟨[], 0, 0⟩, bridgeOut := 0
      logFull := false, trace := []
      gov := { Gov.reset with env := s.sys.gov.env, hbAt := s.now } } }.toPor

/-- VCORE or VMEM of a partition has gone: the partition is fenced and held in reset (log entry 54). -/
def State.losePart (s : State) (p : Fin 4) : State := (s.modPart p fun x => { x with railLost := true }).keepHold p

/-- VSRAM or VIO has gone: the package stops. -/
def State.stopPackage (s : State) : State :=
  let s := (s.modPins fun p => { p with stopped := true }).darkPorts portStateFailed lcLock false
  let s := [0, 1].foldl (fun s (d : Fin 2) => s.setFld (rHstEth d) 60 4 0) s
  s.fenceParts.stopFill

/-- The effect of Table 11.1. -/
def State.railEffect (s : State) (n : Nat) : State :=
  if n < 4 then s.losePart (partNo n)
  else if n = railVsram ∨ n = railVio then s.stopPackage
  else if n < 9 then s.losePart (partNo (n - 5))
  else if n = railVopt then s.darkPorts portStateFailed lcLock false
  else s.toPor

/-- A rail leaves its range. -/
def State.railGone (s : State) (n : Nat) : State :=
  let s := ((s.modBoot fun b => { b with lost := n :: b.lost }).setFld (rPwrRail n) 0 4 2).alert alRailLoss
  if (List.range 11).all s.sys.boot.lost.contains then s.powerCycle
  else if s.phase = phReady ∨ n = railVopt then s.railEffect n
  else if s.phase = phPor then s.modBoot fun b => { b with inited := false }
  else s.toPor

/-- A rail is in range again. -/
def State.railBack (s : State) (n : Nat) : State :=
  let s := s.modBoot fun b => { b with lost := b.lost.filter fun m => m != n, since := s.now }
  let s := s.setFld (rPwrRail n) 0 4 1
  let both := fun (p : Nat) => !s.sys.boot.lost.contains p && !s.sys.boot.lost.contains (p + 5)
  if n < 9 ∧ n ≠ railVsram then
    let p := partNo (if n < 4 then n else n - 5)
    if both p.val then s.modPart p fun x => { x with railLost := false } else s
  else s

/-- RAIL_LOSS: a rail leaves its range, or is in range again. -/
def execRailLoss (rail : Fin 12) (lost : Bool) (s : State) : Answer :=
  .next (if lost then (if s.sys.boot.lost.contains rail.val then s else s.railGone rail.val)
  else if s.sys.boot.lost.contains rail.val then s.railBack rail.val else s)

/-! ## VAUX (R387, R393) -/

/-- VAUX_APPLY: the package starts as at power-on; what is kept without power stays, and so do the signals as they stand. -/
def State.vauxApplied (s : State) : State :=
  let kept := State.reset
  let s0 := { kept with
    pending := s.pending, now := s.now, freeCtr := s.freeCtr, out := s.out
    sys := { kept.sys with
      gov := { Gov.reset with hbAt := s.now }, nv := s.sys.nv, fw := s.sys.fw, upd := s.sys.upd, ptcAt := s.now, ptcStored := s.sys.ptcStored
      pins := { s.sys.pins with isolated := false, shut := false, stopped := false }
      boot := { Boot.reset with since := s.now, porAt := s.now, lost := s.sys.boot.lost.filter fun n => n != railVaux } } }
  let same := fun (t : State) a => t.setReg a (s.reg a)
  ([rMgtLc, rMgtLic, rMgtUpdRel, rMgtUpdStat].foldl same s0).setReg rObsPtc (BitVec.ofNat 64 s.sys.ptcStored.toNat)

/-- VAUX_APPLY. -/
def execVauxApply (s : State) : Answer := .next s.vauxApplied

end Sys2Proof.Machine
end

