-- ==== Sys2Proof/Machine/Nvstore.lean ====
section
/-! DEFINITION. What the non-volatile store holds: configuration containers, licences and tokens, the life cycle, and the core-map
store (Bring-up, configuration and licences, R424 to R442). -/

namespace Sys2Proof.Machine

def State.modNv (s : State) (f : Nv → Nv) : State := { s with sys := { s.sys with nv := f s.sys.nv } }

/-! ## Life-cycle states (Table 12.7) -/

def lfManufacture : Nat := 0
def lfProvisioned : Nat := 1
def lfDeployed : Nat := 2
def lfRma : Nat := 3

def State.lifeCycle (s : State) : Nat := s.fld rMgtLc 61 3

/-! ## Containers (Table 12.3) -/

def slice (l : List Byte) (o n : Nat) : List Byte := (l.drop o).take n

def allZero (l : List Byte) : Bool := l.all fun b => b == 0

/-- The offset behind `n` settings blocks from `o` on, and the blocks: TYPE, VER, body. -/
def settingsFrom (d : List Byte) : Nat → Nat → List (Nat × Nat × List Byte) × Nat
  | 0, o => ([], o)
  | n + 1, o =>
    let len := leAt d (o + 4) 4
    let r := settingsFrom d n (o + 8 + (len + 7) / 8 * 8)
    ((leAt d o 2, leAt d (o + 2) 2, slice d (o + 8) len) :: r.1, r.2)

/-- The settings blocks of a container, and where its keys begin. -/
def settings (d : List Byte) : List (Nat × Nat × List Byte) × Nat := settingsFrom d (min (leAt d 6 2) 33) 0x90

def ecKeyLen : Nat := 97
def pqKeyLen : Nat := 2592
def ecSigLen : Nat := 96
def pqSigLen : Nat := 4627

/-- The record of a container. -/
def recordOf (d : List Byte) : List Byte := slice d 0x10 128

/-- Length of a container from where its keys begin. -/
def tailLen : Nat := ecKeyLen + pqKeyLen + ecSigLen + pqSigLen + 5 + 8

/-- Check 1 of R426. -/
def formOk (d : List Byte) : Bool :=
  let o := (settings d).2
  leAt d 0 4 == 0x4B394346 && leAt d 4 2 == 1 && decide (leAt d 6 2 ≤ 32) && decide (d.length ≤ 16384) &&
    leAt d 0xC 4 == d.length && o + tailLen == d.length &&
    allZero (slice d (o + ecKeyLen + pqKeyLen + ecSigLen + pqSigLen) 5)

/-- SHA-384 of PK_EC followed by PK_PQ. -/
def keyHash (d : List Byte) : BitVec 384 := sha384 (slice d (settings d).2 (ecKeyLen + pqKeyLen))

/-- Check 2: the key hash held for the life-cycle state, the next one, or the test key's (R441). -/
def State.keyOk (s : State) (d : List Byte) : Bool :=
  let h := some (keyHash d)
  h == s.sys.nv.opHash || h == s.sys.nv.nextHash ||
    ((s.lifeCycle == lfManufacture || s.lifeCycle == lfRma) && h == some Config.testKeyHash)

/-- Check 3. -/
def signedOk (d : List Byte) : Bool :=
  let o := (settings d).2
  let m := sha384 (d.take (o + ecKeyLen + pqKeyLen))
  let sig := o + ecKeyLen + pqKeyLen
  Config.verifyEc (slice d o ecKeyLen) m (slice d sig ecSigLen) &&
    Config.verifyPq (slice d (o + ecKeyLen) pqKeyLen) m (slice d (sig + ecSigLen) pqSigLen)

/-- An extent or coordinate of a record. -/
def recAxis (r : List Byte) (o i : Nat) : Nat := leAt r (o + 2 * i) 2

/-- Packages of the fabric that a record names. -/
def recPackages (r : List Byte) : Nat := recAxis r 0x20 0 * recAxis r 0x20 1 * recAxis r 0x20 2

/-- A record is valid under R311 but for the licence's fabric scale; MAGIC and VERSION count as its reserved fields do (DEDUCED, log
entry 55). -/
def recordOk (r : List Byte) : Bool :=
  let ext := recAxis r 0x20
  let svc := leAt r 0x30 4
  leAt r 0 4 == 0x4B394952 && leAt r 4 2 == 1 && allZero (slice r 6 2) && allZero (slice r 0x26 2) && allZero (slice r 0x2E 2) &&
    allZero (slice r 0x34 4) && allZero (slice r 0x48 8) && decide (svc < 2 ^ 12) &&
    ((List.range 6).all fun i => svc / 4 ^ i % 4 != 3) && decide (leAt r 0x38 8 < 2 ^ 36) && decide (leAt r 0x40 4 < 2 ^ 19) &&
    decide (leAt r 0x44 4 < 2 ^ 19) &&
    decide (1 ≤ ext 0 ∧ ext 0 ≤ 16 ∧ 1 ≤ ext 1 ∧ ext 1 ≤ 16 ∧ 1 ≤ ext 2 ∧ ext 2 ≤ 128) && decide (recPackages r ≤ 8192) &&
    ((List.range 3).all fun i => decide (recAxis r 0x28 i < ext i)) && leAt r 0x50 48 == (sha384 (r.take 0x50)).toNat

/-- A settings block has a TYPE of Table 12.4, and a VER that the firmware supports. An older VER is no failure (R518). -/
def State.blockOk (s : State) (b : Nat × Nat × List Byte) : Bool :=
  (b.1 == 1 || b.1 == 2 || b.1 == 3 || b.1 == 0xFF) && decide (b.2.1 ≤ (Config.highestVer s.sys.fw.release).toNat)

/-! ## The judgement of a configuration (R424, R426) -/

/-- CAUSE of Table 12.10. -/
def caMissing : Nat := 1
def caHalf : Nat := 2
def caCheck : Nat := 3
def caLicence : Nat := 4
def caLicenceBad : Nat := 5
def caScrapped : Nat := 6
def caNoPartition : Nat := 7
def caIoDie : Nat := 8
def caFwBad : Nat := 9

/-- The first check of R426 that a container fails; 0 for none. -/
def State.checkConfig (s : State) (d : List Byte) : Nat :=
  let r := recordOf d
  if !formOk d || !s.keyOk d || !signedOk d then caCheck
  else if leAt r 8 16 ≠ Config.serial.toNat ∨ recordOk r = false then caCheck
  else if s.fld rMgtLic 32 16 < recPackages r then caLicence
  else if (settings d).1.all s.blockOk then 0 else caCheck

/-- SEQ of a slot: 0 where its header cannot be read. -/
def slotSeq (d : List Byte) : Nat := if d.length < 0x10 then 0 else leAt d 8 4

/-- A slot holds its COMMIT word, 0x2121_5449_4D4D_4F43. -/
def committedSlot (d : List Byte) : Bool := decide (0x10 ≤ d.length) && leAt d (d.length - 8) 8 == 0x212154494D4D4F43

/-- The slot in use: true is B. Of equal SEQ it is A (DESIGN CHOICE, log entry 55). -/
def State.slotB (s : State) : Bool := decide (slotSeq s.sys.nv.slotA < slotSeq s.sys.nv.slotB)

def State.slotUsed (s : State) : List Byte := if s.slotB then s.sys.nv.slotB else s.sys.nv.slotA

/-- MGT_CFG_STAT (Table 12.13). -/
def State.showCfg (s : State) : State :=
  let b := fun (x : Bool) => if x then 1 else 0
  let va := committedSlot s.sys.nv.slotA && s.checkConfig s.sys.nv.slotA == 0
  let vb := committedSlot s.sys.nv.slotB && s.checkConfig s.sys.nv.slotB == 0
  s.setReg rMgtCfgStat (setField (setField (setField (setField (setField (setField 0 63 1 (b s.slotB)) 62 1
    (b (committedSlot s.sys.nv.slotA))) 61 1 (b va)) 60 1 (b (committedSlot s.sys.nv.slotB))) 59 1 (b vb)) 0 32 (slotSeq s.slotUsed))

/-! ## Tokens (Table 12.5) -/

def tokenLen : Nat := 4832

/-- A token is signed by Elverfort for this package and well formed (R435, R436). -/
def tokenOk (d : List Byte) : Bool :=
  let m := sha384 (d.take 0x60)
  let typ := leAt d 6 1
  let v := leAt d 7 1
  let scale := leAt d 0x1C 2
  let feat := leAt d 0x1E 2
  d.length == tokenLen && leAt d 0 4 == 0x4B39544B && leAt d 4 2 == 1 && leAt d 8 16 == Config.serial.toNat && allZero (slice d 0x50 16) &&
    allZero (slice d 0x12D3 13) && Config.verifyEc Config.elverfortEc m (slice d 0x60 ecSigLen) &&
    Config.verifyPq Config.elverfortPq m (slice d 0xC0 pqSigLen) &&
    (if typ = 1 then
      ((v == 0 && scale == 64 && feat == 0) || (v == 1 && scale == 1024 && feat == 1) || (v == 2 && scale == 8192 && feat == 7)) &&
        allZero (slice d 0x20 48)
    else if typ = 2 then
      (v == lfManufacture || v == lfProvisioned || v == lfDeployed || v == lfRma || v == lcScrapped) && scale == 0 && feat == 0 &&
        (v == lfProvisioned || allZero (slice d 0x20 48))
    else false)

/-- The stored licence is valid. An empty store stands for the licence that MGT_LIC shows (DESIGN CHOICE, log entry 6). -/
def State.licenceOk (s : State) : Bool := s.sys.nv.licence.isEmpty || (tokenOk s.sys.nv.licence && leAt s.sys.nv.licence 6 1 == 1)

/-- MGT_LIC of a licence token. -/
def licenceWord (d : List Byte) : Word := setField (setField (setField 0 62 2 (leAt d 7 1)) 32 16 (leAt d 0x1C 2)) 0 3 (leAt d 0x1E 2)

/-- Why the package may not be brought up; 0 for no reason (R424, R426, R436). -/
def State.judge (s : State) : Nat :=
  let d := s.slotUsed
  if !s.licenceOk then caLicenceBad
  else if s.sys.nv.slotA.length < 0x10 ∧ s.sys.nv.slotB.length < 0x10 then caMissing
  else if !committedSlot d then caHalf
  else s.checkConfig d

/-- Takes the record of the slot in use into force. A record that differs in FABRIC_ID, EXT or COORD runs LINKS in full (R423). -/
def State.applyRecord (s : State) : State :=
  let r := recordOf s.slotUsed
  let same := slice r 0x18 14 == slice s.sys.record 0x18 14 && slice r 0x28 6 == slice s.sys.record 0x28 6
  let full := !s.sys.boot.inited || !same
  let s := if full then s.outputsOff else s
  let geom := setField (setField (setField 0 60 4 (recAxis r 0x20 0 - 1)) 56 4 (recAxis r 0x20 1 - 1)) 49 7 (recAxis r 0x20 2 - 1)
  let coord := (packCoord ⟨recAxis r 0x28 0, recAxis r 0x28 1, recAxis r 0x28 2⟩).toNat
  (({ s with sys := { s.sys with record := r } }).setReg rGeom (setField geom 0 15 coord)).modBoot fun b => { b with relink := full }

/-! ## The core-map store (R430, R431) -/

/-- The newer copy of the core-map store. -/
def Nv.maps (n : Nv) : Map Word := if n.seq0 < n.seq1 then n.maps1 else n.maps0

/-- One physical core of the derivation of R430: the next logical core to bind, and the map so far. -/
def deriveOne (fuse : BitVec 9) (a : Nat × Word) (phys : Nat) : Nat × Word :=
  if fuse.getLsbD phys then a
  else if a.1 < 8 then (a.1 + 1, setField a.2 (4 * a.1) 4 phys)
  else (a.1, setField a.2 44 4 phys)

/-- The map of a cluster derived from its fused disabled bits (R430). -/
def deriveMap (fuse : BitVec 9) : Word :=
  let a := (List.range 9).foldl (deriveOne fuse) (0, setField (setField (setField 0 44 4 15) 0 32 0xFFFFFFFF) 48 9 fuse.toNat)
  setField a.2 32 8 (0xFF - (2 ^ a.1 - 1))

/-- The map of a cluster at boot. -/
def Nv.mapOf (n : Nv) (p : Fin 4) (c : Fin 12) : Word :=
  let m := mget (fun _ => 0) n.maps (clusterIdx p c)
  if m = 0 then deriveMap (mget (fun _ => 0) n.fuses (clusterIdx p c)) else m

/-- Loads every map (R430). -/
def State.loadMaps (s : State) : State :=
  allParts.foldl (fun s p => (List.finRange 12).foldl (fun s c => s.setReg (rCmap p c.val) (s.sys.nv.mapOf p c)) s) s

/-! ## Storing a configuration, and tokens (R428, R429, R438 to R440, R443) -/

/-- Bytes of MGT_STAGE. -/
def State.stageBytes (s : State) (n : Nat) : List Byte :=
  ((List.range ((n + 7) / 8)).flatMap fun i => bytesOf 64 (s.reg (rMgtStage i)) 8).take n

/-- A container with its COMMIT word, as it is stored. -/
def commitSlot (d : List Byte) : List Byte := d.take (d.length - 8) ++ bytesOf 64 0x212154494D4D4F43#64 8

/-- The hashes after a container has been stored: of several blocks that carry one, the last replaces the others (R429). -/
def Nv.adopt (n : Nv) (d : List Byte) : Nv :=
  let n := if n.nextHash == some (keyHash d) then { n with opHash := n.nextHash, nextHash := none } else n
  match (settings d).1.reverse.find? fun b => b.1 == 0xFF with
  | some b => { n with nextHash := some (BitVec.ofNat 384 (leNat (b.2.2.take 48))) }
  | none => n

/-- STORE_CONFIG: the state and RESULT. -/
def State.storeContainer (s : State) (d : List Byte) : State × BitVec 8 :=
  let why := s.checkConfig d
  if leAt d 0xC 4 ≠ d.length then (s, stConfig)
  else if why = caLicence then (s, stLicence)
  else if why ≠ 0 ∨ leAt d 8 4 ≤ slotSeq s.slotUsed then (s, stConfig)
  else
    let toB := !s.slotB
    ((s.modNv fun n => (if toB then { n with slotB := commitSlot d } else { n with slotA := commitSlot d }).adopt d).showCfg, stOk)

/-- Ends the work of the functions that the licence now in force does not grant, and withdraws them (R439). -/
def State.withdraw (s : State) : State :=
  let s := (s.launches.filter fun l => s.lacks l.needs).foldl (fun s l => s.endLaunch l stLicence) s
  let far := fun (c : Coll) => (c.reduces && c.far == 2 && !s.feature 2) || (c.pipe && !s.feature 1)
  let s := ((s.colls.filter far).foldl (fun s c => s.endColl c.ring c.idx stLicence ccLicence) s).settle
  (List.range 36).foldl (fun s n =>
    if s.keptDark n == some lcLicence && s.portState n != portStateDark then
      let l := (s.port n).packets
      ((s.modPort n fun x => { x with replay := [], resync := none }).lossAnswers n l).showPort n portStateDark 0 lcLicence
    else s) s

/-- A licence token takes effect at once (R438). -/
def State.takeLicence (s : State) (d : List Byte) : State :=
  let s := (s.modNv fun n => { n with licence := d }).setReg rMgtLic (licenceWord d)
  s.withdraw

/-- Transitions by token (Table 12.7). -/
def transitionOk (a b : Nat) : Bool :=
  (a == lfManufacture && b == lfProvisioned) || ((a == lfProvisioned || a == lfDeployed) && b == lfRma) ||
    (a == lfRma && b == lfProvisioned) || (a != lcScrapped && b == lcScrapped)

/-- INSTALL_TOKEN: the state and RESULT. -/
def State.installTok (s : State) (d : List Byte) : State × BitVec 8 :=
  let v := leAt d 7 1
  if d.length ≠ tokenLen then (s, stConfig)
  else if !tokenOk d || decide (leAt d 0x18 4 ≤ s.fld rMgtLc 0 32) then (s, stLicence)
  else
    let seq := fun (s : State) => s.setFld rMgtLc 0 32 (leAt d 0x18 4)
    if leAt d 6 1 = 1 then
      if v < s.tier ∧ s.lifeCycle ≠ lfRma then (s, stLicence) else ((seq s).takeLicence d, stOk)
    else if !transitionOk s.lifeCycle v then (s, stLicence)
    else
      let s := ((seq s).setRBit rMgtLc 60 true).setFld rMgtLc 57 3 v
      (s.modNv fun n => { n with pendHash := BitVec.ofNat 384 (leNat (slice d 0x20 48)) }, stOk)

/-- Erases configuration slots and the core-map store. -/
def Nv.erase (n : Nv) : Nv := { n with slotA := [], slotB := [], maps0 := [], maps1 := [] }

/-- A pending transition takes effect (R440). -/
def State.transition (s : State) : State :=
  if !s.rbit rMgtLc 60 then s
  else
    let from' := s.lifeCycle
    let dest := s.fld rMgtLc 57 3
    let s := ((s.setFld rMgtLc 61 3 dest).setRBit rMgtLc 60 false).setFld rMgtLc 57 3 0
    s.modNv fun n =>
      if dest = lcScrapped then { n.erase with opHash := none, nextHash := none, licence := [], pendHash := 0 }
      else if dest = lfProvisioned then
        { (if from' = lfRma then n.erase else n) with opHash := some n.pendHash, nextHash := none, pendHash := 0 }
      else { n with pendHash := 0 }

/-- In WAIT_CONFIG the package checks again, and goes on from MEMORY where both are valid (R428). -/
def State.recheck (s : State) : State :=
  if s.phase ≠ phWait then s
  else
    let why := s.judge
    if why = 0 then (s.applyRecord.modBoot fun b => { b with wait := 0 }).setPhase phMemory 0 else s.setPhase phWait why

/-- A write of MGT_STAGE_CTL. An operation ends at once (log entry 23). -/
def State.stageWrite (s : State) (v : Word) : State :=
  let s := s.mergeReg rMgtStageCtl v
  let len := s.fld rMgtStageCtl 16 16
  let ends := fun (r : State × BitVec 8) =>
    let s := r.1.setFld rMgtStageCtl 48 8 r.2.toNat
    if r.2 = stOk then s.recheck else s
  let op := fieldN v 0 2
  if op ≠ 1 ∧ op ≠ 2 then s
  else if len = 0 ∨ 16384 < len then ends (s, stConfig)
  else if op = 1 then ends (s.storeContainer (s.stageBytes len))
  else ends (s.installTok (s.stageBytes len))

/-- STORE_CONFIG. -/
def execStoreConfig (src : RegSource) (v : Word) (s : State) : Answer := .next (s.onWrite src rMgtStageCtl fun s => s.stageWrite v)

/-- INSTALL_TOKEN. -/
def execInstallToken (src : RegSource) (v : Word) (s : State) : Answer := .next (s.onWrite src rMgtStageCtl fun s => s.stageWrite v)

end Sys2Proof.Machine
end

