-- ==== Sys2Proof/Machine/Pair.lean ====
section
/-! DEFINITION. The management pair and its comparators (Reset, recovery and redundancy, R468 to R474). Core A is 0, core B is 1. -/

namespace Sys2Proof.Machine

/-! ## States of the cores (Table 13.9) -/

def mcOff : Nat := 0
def mcCompare : Nat := 1
def mcShadow : Nat := 2
def mcReload : Nat := 3
def mcFenced : Nat := 4

/-- State of a management core. -/
def State.mgmtSt (s : State) (b : Bool) : Nat := s.fld rMgtPair (if b then 57 else 60) 3

def State.setMgmtSt (s : State) (b : Bool) (st : Nat) : State := s.setFld rMgtPair (if b then 57 else 60) 3 st

/-- The active core: true is B. -/
def State.activeB (s : State) : Bool := s.rbit rMgtPair 63

def State.fwDiff (s : State) : Bool := s.rbit rMgtPair 56

def State.modPair (s : State) (f : Pair → Pair) : State := { s with sys := { s.sys with pair := f s.sys.pair } }

/-- SINGLE_MGMT: the other core is FENCED (R470). -/
def State.showSingle (s : State) : State :=
  s.setRBit rMgtBoot 49 (s.mgmtSt false == mcFenced || s.mgmtSt true == mcFenced)

/-- A message is acted on: it goes to its unit or interface. -/
def State.actOn (s : State) (m : PairCopy) : State := (s.modPair fun p => { p with seq := m.seq + 1 }).emit (.mgmt m.body)

/-! ## Fences (R463, R470) -/

/-- CAUSE of a fence: LAST_CAUSE of MGT_PAIR. -/
def fcOwn : Nat := 1
def fcSilent : Nat := 2
def fcSecond : Nat := 3
def fcSelfTest : Nat := 4
def fcReload : Nat := 5
def fcShadow : Nat := 6
def fcStart : Nat := 7

/-- Fences a management core. The other becomes active where it was the active one; where that one was single, the package is
reset. The fence takes a package dump. -/
def State.fenceMgmt (s : State) (b : Bool) (cause : Nat) : State :=
  let other := s.mgmtSt (!b)
  let s := ((s.setMgmtSt b mcFenced).setFld rMgtPair 52 4 cause).setRBit rMgtPair 51 b
  let s := (s.event 6 ((if b then 1 else 0) + cause * 2)).showSingle
  if s.activeB != b then s.startDump dtPair none
  else if other = mcCompare then (s.setRBit rMgtPair 63 (!b)).startDump dtPair none
  else s.startPackage 4 (some dtPair)

/-! ## Messages (R468, R469, R472) -/

/-- PTC seconds. -/
def State.ptcSec (s : State) : Nat := s.fld rObsPtc 0 32

/-- The copies of message s differ with both intact, or neither is (R469). -/
def State.diverge (s : State) (a b : PairCopy) : State :=
  let m := if s.activeB then b else a
  let again : Bool := decide (s.fld rMgtPairCnt 48 16 ≠ 0) && decide (s.ptcSec ≤ s.fld rMgtPair 12 32 + 600)
  let s := ((s.bump rMgtPairCnt 48 16).setFld rMgtPair 12 32 s.ptcSec).event 7 m.seq.toNat
  if again then (s.actOn m).fenceMgmt (!s.activeB) fcSecond
  else (s.setMgmtSt (!s.activeB) mcReload).modPair fun p => { p with held := some m, reloadAt := s.now }

/-- The comparator with both cores in COMPARE. -/
def State.compare (s : State) (a b : PairCopy) : State :=
  if !a.intact && b.intact then (s.actOn b).fenceMgmt false fcOwn
  else if a.intact && !b.intact then (s.actOn a).fenceMgmt true fcOwn
  else if a.intact && a.body == b.body && a.digest == b.digest then s.actOn a
  else s.diverge a b

/-- The count of R472 for a standby in SHADOW whose firmware is the active's. -/
def State.shadow (s : State) (x y : PairCopy) : State :=
  let b := !s.activeB
  if s.fwDiff then s
  else if y.intact && x.body == y.body && x.digest == y.digest then
    let s := s.modPair fun p => { p with same := p.same + 1 }
    if s.sys.pair.same = 10000 then (s.setMgmtSt b mcCompare).bump rMgtPairCnt 32 16 else s
  else
    let s := s.modPair fun p => { p with same := 0, diffs := p.diffs + 1 }
    if s.sys.pair.diffs = 3 then s.fenceMgmt b fcShadow else s

/-- A message comes from the active and, where it sends one, from the standby. While a divergence is settled none does. -/
def State.message (s : State) (a b : PairCopy) : State :=
  let x := if s.activeB then b else a
  let y := if s.activeB then a else b
  let st := s.mgmtSt (!s.activeB)
  if s.mgmtSt s.activeB ≠ mcCompare ∨ a.seq ≠ b.seq then s
  else if st = mcCompare then s.compare a b
  else if st = mcReload then s
  else if st = mcShadow then (s.actOn x).shadow x y
  else s.actOn x

/-- PAIR_MESSAGE: copies of one message. -/
def execPairMessage (a b : PairCopy) (s : State) : Answer := .next (s.message a b)

/-- PAIR_COPY_TIMEOUT: the other copy has not come within 50 µs. -/
def execPairCopyTimeout (fromB : Bool) (m : PairCopy) (s : State) : Answer :=
  .next (if s.mgmtSt false = mcCompare ∧ s.mgmtSt true = mcCompare then (s.actOn m).fenceMgmt (!fromB) fcSilent else s)

/-- The copy withheld by a divergence whose reload runs. -/
def State.reloading (s : State) : Option PairCopy :=
  if s.mgmtSt (!s.activeB) = mcReload then s.sys.pair.held else none

/-- RELOAD_DONE: both cores have computed the message again. -/
def execReloadDone (a b : PairCopy) (s : State) : Answer :=
  .next (match s.reloading with
    | some m =>
      if a.seq = m.seq ∧ b.seq = m.seq ∧ s.now ≤ s.sys.pair.reloadAt + 2000000 then
        ((s.setMgmtSt (!s.activeB) mcCompare).modPair fun p => { p with held := none }).compare a b
      else s
    | none => s)

/-- RELOAD_TIMEOUT: the reload has exceeded 2 ms. -/
def execReloadTimeout (s : State) : Answer :=
  .next (match s.reloading with
    | some m =>
      if s.sys.pair.reloadAt + 2000000 < s.now then
        ((s.modPair fun p => { p with held := none }).actOn m).fenceMgmt (!s.activeB) fcReload
      else s
    | none => s)

/-! ## READMIT and SWAP (R472, R473) -/

def Pair.fresh (p : Pair) : Pair := { p with same := 0, diffs := 0 }

/-- Resets the fenced core; its start-up check passes, and it enters SHADOW as standby (log entry 45). -/
def State.readmit (s : State) : State :=
  let b := !s.activeB
  if s.mgmtSt b = mcFenced ∧ s.mgmtSt s.activeB = mcCompare then
    ((s.setMgmtSt b mcShadow).modPair Pair.fresh).showSingle
  else s

/-- Exchanges the roles. -/
def State.swap (s : State) : State :=
  let a := s.activeB
  if s.mgmtSt (!a) = mcCompare then s.setRBit rMgtPair 63 (!a)
  else if s.mgmtSt (!a) = mcShadow ∧ s.fwDiff = true then
    (((s.setMgmtSt (!a) mcCompare).setMgmtSt a mcShadow).setRBit rMgtPair 63 (!a)).modPair Pair.fresh
  else s

/-- A write of MGT_PAIR. -/
def State.pairWrite (s : State) (v : Word) : State :=
  let s := if bit v 0 then s.readmit else s
  if bit v 1 then s.swap else s

/-- READMIT. -/
def execReadmit (src : RegSource) (v : Word) (s : State) : Answer := .next (s.onWrite src rMgtPair fun s => s.pairWrite v)

/-- SWAP. -/
def execPairSwap (src : RegSource) (v : Word) (s : State) : Answer := .next (s.onWrite src rMgtPair fun s => s.pairWrite v)

/-- STANDBY_SELFTEST: a pass of the standby's self-test ends (R474). -/
def execStandbySelftest (pass : Bool) (cov tcov : BitVec 8) (s : State) : Answer :=
  let b := !s.activeB
  .next (if s.mgmtSt b = mcCompare ∨ s.mgmtSt b = mcShadow then
    let s := (s.setFld rMgtPairCnt 8 8 cov.toNat).setFld rMgtPairCnt 0 8 tcov.toNat
    if pass then s.bump rMgtPairCnt 16 16 else s.fenceMgmt b fcSelfTest
  else s)

/-! ## Restart of the pair from the bank that the activation record names (R509) -/

/-- The standby restarts on the other firmware and takes over; the former active restarts and follows in SHADOW. The steps of
R509 up to its last are one step of the model (log entry 23). -/
def State.restartPair (s : State) : State :=
  let st := s.mgmtSt (!s.activeB)
  if s.mgmtSt s.activeB = mcCompare ∧ (st = mcCompare ∨ st = mcShadow) then
    let s := ((s.setMgmtSt (!s.activeB) mcShadow).setRBit rMgtPair 56 true).swap
    s.setRBit rMgtPair 56 false
  else s

end Sys2Proof.Machine
end

