-- ==== Sys2Proof/Machine/Boot.lean ====
section
/-! DEFINITION. Power-on phases, package reset by PKG_RESET_N, known-answer runs and READY (Bring-up, configuration and licences, R417 to
R423, R430 to R434; Lands, signals and electrical ratings, R543, R544), and die-to-die links that go down in service (R26). -/

namespace Sys2Proof.Machine

/-! ## PKG_RESET_N (R423, R448, R544) -/

/-- A package reset with all its steps at once, as PKG_RESET_N makes it: it takes no dump, and the package is in POR. -/
def State.resetNow (s : State) : State :=
  let s := ({ s with resets := [] }.bump rMgtRst 32 16).setFld rMgtRst 48 8 2
  let j : ResetJob :=
    { dom := .package, step := 6, hold := false, held := false, dump := false, start := s.now, dumpTime := 0, fail := false }
  let s := ((s.fenceDomain .package).cutAndGen j).resetPackage
  let s := (s.stopCores allCores).setPhase phPor 0
  (s.setFld rMgtBoot 52 4 0).modBoot fun b => { b with verified := false, due := true, porAt := s.now }

/-- A shutdown, an isolation or a stop ends (R409, R414, R542). -/
def State.endStop (s : State) : State :=
  allParts.foldl (fun s p => s.modPart p fun x => { x with fenced := false })
    (s.modPins fun p => { p with isolated := false, shut := false, stopped := false })

/-- PKG_RESET_N is asserted, or released. -/
def execPkgResetN (asserted : Bool) (s : State) : Answer :=
  let was := s.sys.pins.reset
  let s := s.modPins fun p => { p with reset := asserted }
  .next (if asserted && !was then s.resetNow.endStop
  else if !asserted && was then s.modBoot fun b => { b with since := s.now }
  else s)

/-! ## POR and MGMT (R418 to R420, R440, R442, R534) -/

/-- The FTC of a package that starts cold counts from 0 at the end of POR, until it locks (Fabric time, R494). A lock is lost only in
a power cycle (Table 13.4). -/
def State.startFtc (s : State) : State :=
  if s.sys.boot.inited || s.rbit rMgtBoot 51 then s
  else
    let s := { s with ftc := 0 }.setReg rObsSync 0
    { s.setRBit rMgtBoot 51 false with sys := { s.sys with sync := SysSt.reset.sync } }

/-- MGMT begins: a pending transition takes effect, and the boot ROM verifies the firmware. -/
def State.beginMgmt (s : State) (activeOk otherOk : Bool) : State :=
  let s := (s.transition.setPhase phMgmt (if activeOk || otherOk then 0 else caFwBad)).modBoot fun b =>
    { b with verified := activeOk || otherOk, bad := [] }
  s.setRBit rMgtBoot 50 (!activeOk && otherOk)

/-- The package may leave POR. -/
def State.mayLeavePor (s : State) : Bool :=
  s.phase == phPor && s.sys.boot.lost.isEmpty && !s.sys.pins.reset && !s.sys.pins.isolate && decide (s.sys.boot.since + 10000000 ≤ s.now)

/-- POR_EXIT. After a package reset without POR it is the boot ROM's verification in MGMT. With FTC_REF absent the FTC runs from an
internal oscillator, and nothing else changes (R534). -/
def execPorExit (refPresent fwActiveOk fwOtherOk : Bool) (s : State) : Answer :=
  let _ := refPresent
  .next (if s.mayLeavePor then
    let rails := (List.range 12).foldl (fun s n =>
      if s.fld (rPwrRail n) 0 4 = 0 then s.setFld (rPwrRail n) 0 4 1 else s) s.startFtc
    rails.beginMgmt fwActiveOk fwOtherOk
  else if s.phase == phMgmt && !s.sys.boot.verified && s.fld rMgtBoot 56 4 == 0 then s.beginMgmt fwActiveOk fwOtherOk
  else s)

/-- A phase may end: nothing stops the bring-up, and no reset of the package runs (R409, R414). -/
def State.goesOn (s : State) (ph : Nat) : Bool :=
  s.phase == ph && !s.sys.pins.shut && !s.sys.pins.isolated && !s.sys.pins.stopped && !s.sys.pins.reset &&
    !s.resetting fun d => d == .package

/-- One management core fails its start-up self-check (R420). -/
def State.failStart (s : State) (b : Bool) : State :=
  let s := ((s.setMgmtSt b mcFenced).setFld rMgtPair 52 4 fcStart).setRBit rMgtPair 51 b
  (s.setRBit rMgtPair 63 (!b)).event 6 ((if b then 1 else 0) + fcStart * 2)

/-- The management cores start, A active. -/
def State.startPair (s : State) (aOk bOk : Bool) : State :=
  let s := ((s.setRBit rMgtPair 63 false).setMgmtSt false mcCompare).setMgmtSt true mcCompare
  let s := { s.setRBit rMgtPair 56 false with sys := { s.sys with pair := .reset } }
  (if !aOk then s.failStart false else if !bOk then s.failStart true else s).showSingle

/-- Life cycle, licence and configuration are read and checked. -/
def State.readStore (s : State) : State :=
  if s.lifeCycle = lcScrapped then s.setPhase phMgmt caScrapped
  else
    let s := if s.sys.nv.licence.isEmpty || !s.licenceOk then s else s.setReg rMgtLic (licenceWord s.sys.nv.licence)
    let why := s.judge
    let s := (s.showCfg.modBoot fun b => { b with wait := why }).setPhase phClocks 0
    if why = 0 then s.applyRecord else s

/-! ## CLOCKS and MEMORY (R421, R423, R427) -/

/-- Bring-up fails. -/
def State.bootFails (s : State) (cause : Nat) : State := (s.setPhase phFailed cause).outputsOff

/-- WAIT_CONFIG: the package is not attached, and its outputs are off. -/
def State.waitConfig (s : State) : State :=
  ({ s with sys := { s.sys with record := [] } }.setPhase phWait s.sys.boot.wait).outputsOff

/-- CLOCKS_PHASE_END: `linksOk` are the partitions that have a die-to-die link, `dieOk` tells of the I/O dies and the bridge link. -/
def execClocksPhaseEnd (linksOk : List (Fin 4)) (dieOk : Bool) (s : State) : Answer :=
  .next (if !s.goesOn phClocks then s
  else if !dieOk then s.bootFails caIoDie
  else
    let s := s.modBoot fun b => { b with bad := allParts.filter fun p => !linksOk.contains p }
    let s := linksOk.foldl (fun s p => s.modPart p fun x => { x with linkDown := [] }) s
    if s.sys.boot.wait ≠ 0 then s.waitConfig else s.setPhase phMemory 0)

/-- The stacks of a partition at the end of MEMORY: trained at a cold start, taken out of self-refresh after a package reset. -/
def State.readyStacks (s : State) (fail : List (Fin 4 × Fin 6)) : State :=
  allParts.foldl (fun s p => (List.finRange 6).foldl (fun s n =>
    if !s.sys.boot.inited then s.setFld (rHbmStat p n.val) 0 4 (if fail.contains (p, n) then 4 else 2)
    else if s.fld (rHbmStat p n.val) 0 4 = 4 then s else s.setFld (rHbmStat p n.val) 0 4 2) s) s

/-- Tile initialisation (R230): every tile of every level holds zero data and a valid record. -/
def State.initTiles (s : State) : State :=
  if s.sys.boot.inited then s else { s with mem := { s.mem with pkg := [], loc := [], tcr := [], locTcr := [] } }

/-- A partition fails in bring-up: it is held in reset, out of service (Table 12.2). -/
def State.failPart (s : State) (p : Fin 4) : State := (s.modPart p fun x => { x with fenced := true }).keepHold p

/-- Ports at the start of LINKS: those that are up stay up; the others train, or stay dark. -/
def State.startPorts (s : State) : State :=
  (List.range 36).foldl (fun s n =>
    if s.portUp n || s.portState n == portStateDraining then s
    else match s.keptDark n with
      | some c => s.showPort n portStateDark 0 c
      | none => if s.rbit (rPort n) 49 then s.showPort n portStateTraining 0 lcNone else s.showPort n portStateDark 0 lcDisabled) s

/-- LINKS begins: modules are lit, ports train, the Ethernet MACs come up. -/
def State.startLinks (s : State) : State :=
  let s := ((List.range 12).foldl (fun s m => s.light m) (s.setPhase phLinks 0)).startPorts
  [0, 1].foldl (fun s (d : Fin 2) => if s.host.portsHeld.contains (2 + d.val) then s else s.setFld (rHstEth d) 60 4 1) s

/-- MEMORY_PHASE_END. -/
def execMemoryPhaseEnd (hbmFail : List (Fin 4 × Fin 6)) (sramFail : List (Fin 4)) (s : State) : Answer :=
  .next (if !s.goesOn phMemory then s
  else
    let s := (s.readyStacks hbmFail).initTiles.modBoot fun b => { b with inited := true }
    let bad := allParts.filter fun p => s.sys.boot.bad.contains p || sramFail.contains p
    let s := allParts.foldl (fun s p =>
      (s.setRBit rMgtBoot (52 + p.val) (!bad.contains p)).modPart p fun x => { x with fenced := x.fenced && bad.contains p }) s
    let s := bad.foldl (fun s p => s.failPart p) s
    if bad.length = 4 then s.bootFails caNoPartition else s.startLinks)

/-! ## LINKS and CORES (R422, R430 to R434) -/

/-- Fabric time is locked, or the record names one package. -/
def State.timeOk (s : State) : Bool := s.rbit rMgtBoot 51 || s.extents == ⟨1, 1, 1⟩

/-- LINKS_PHASE_END: CORES begins, and the core maps are loaded. -/
def execLinksPhaseEnd (s : State) : Answer :=
  .next (if s.goesOn phLinks && s.timeOk then
    (s.loadMaps.setPhase phCores 0).modBoot fun b => { b with known := [] }
  else s)

/-- The runs of a cluster are due: in CORES, or in the RESTORE of its partition. -/
def State.runsDue (s : State) (p : Fin 4) : Bool :=
  s.phase == phCores || s.resets.any fun j => j.dom == .partition p && j.step == 7

/-- A spare that failed its run goes out of service (R434 step 1). -/
def failSpare (m : Word) (fails : List Nat) : Word :=
  let spare := fieldN m 44 4
  if spare ≠ 15 ∧ fails.contains spare = true then setField (setBit m (48 + spare) true) 44 4 15 else m

/-- A bound core that failed its run is replaced by the spare, or left unmapped, and the event is reported (R434 step 2). -/
def State.failRun (s : State) (p : Fin 4) (c : Fin 12) (fails : List Nat) (k : Fin 8) : State :=
  let a := rCmap p c.val
  let core := (packCore ⟨p, c, k⟩).toNat
  if s.rbit a (32 + k.val) ∨ fails.contains (s.fld a (4 * k.val) 4) = false then s
  else
    let spare := s.fld a 44 4
    let s := s.modReg a fun m => failMap m k.val
    if spare = 15 then s.event 2 core else s.event 1 (core + spare * 512)

/-- KNOWN_ANSWER_RUN: all runs of a cluster are done; `fails` are the physical cores that failed twice. -/
def execKnownAnswerRun (p : Fin 4) (c : Fin 12) (fails : List (Fin 9)) (s : State) : Answer :=
  let l := fails.map Fin.val
  .next (if s.runsDue p && !s.sys.boot.known.contains (clusterIdx p c) then
    let old := s.reg (rCmap p c.val)
    let s := s.modReg (rCmap p c.val) fun m => failSpare m l
    let s := (List.finRange 8).foldl (fun s k => s.failRun p c l k) s
    let s := if s.reg (rCmap p c.val) = old then s else s.storeMap p c
    s.modBoot fun b => { b with known := insertUp (clusterIdx p c) b.known }
  else s)

/-! ## READY (R394, R413, R422, R440, R518) -/

/-- A settings block counts: one whose VER the firmware no longer supports is treated as absent (R518). -/
def State.blockLive (s : State) (b : Nat × Nat × List Byte) : Bool := decide ((Config.lowestVer s.sys.fw.release).toNat ≤ b.2.1)

/-- Applies a settings block (Table 12.4). Each field has the range its register gives it. -/
def State.applyBlock (s : State) (b : Nat × Nat × List Byte) : State :=
  let f := fun o n => leAt b.2.2 o n
  if b.1 = 1 then
    let s := if 85 ≤ f 0 1 ∧ f 0 1 ≤ 105 then s.setFld rThmCfg 56 8 (f 0 1) else s
    if 75 ≤ f 1 1 ∧ f 1 1 ≤ 95 then s.setFld rThmCfg 48 8 (f 1 1) else s
  else if b.1 = 2 then
    (if f 0 2 = 0 ∨ 8760 < f 0 2 then s else allParts.foldl (fun s p => s.setFld (rScrubCtl p) 32 16 (f 0 2)) s)
  else if b.1 = 3 then
    [0, 1].foldl (fun s (d : Fin 2) =>
      let s := if f 0 2 = 0 then s else s.setFld (rColCfg d) 32 16 (f 0 2)
      let s := if f 2 2 = 0 then s else s.setFld (rColCfg d) 16 16 (f 2 2)
      if f 4 2 = 0 then s else s.setFld (rColCfg d) 0 16 (f 4 2)) s
  else s

/-- Applies the settings of the configuration in force. -/
def State.applySettings (s : State) : State := ((settings s.slotUsed).1.filter s.blockLive).foldl State.applyBlock s

/-- The configuration in force is signed by the operator, not with the test key. -/
def State.operatorSigned (s : State) : Bool := some (keyHash s.slotUsed) == s.sys.nv.opHash

/-- The governor takes control: H is the power drawn, which is at most 550 W before READY, raised to PFLOOR (R394). -/
def State.startGovernor (s : State) : State :=
  s.modGov fun g =>
    let h := max (s.fld rPwrStat 32 16) g.env.pfloor * perWatt
    { g with h := h, cap := h, peaks := [], stepAt := s.now, relAt := s.now, hbAt := s.now }

/-- Every condition of R422 holds, and the known-answer runs of the partitions in service are done. -/
def State.mayBeReady (s : State) : Bool :=
  s.goesOn phCores && s.mgmtSt s.activeB == mcCompare && s.timeOk && decide (s.fld rMgtBoot 52 4 ≠ 0) &&
    allParts.all fun p => !s.rbit rMgtBoot (52 + p.val) || s.mayRestore (.partition p)

/-! ## Die-to-die links (R26) -/

/-- DIE_TO_DIE_LINK_DOWN: a channel with more than 4 failed lanes goes out of service, or a whole link does. A partition with no link
left is fenced and held (Table 12.2; DEDUCED, log entry 54). -/
def execDieToDieLinkDown (p : Fin 4) (south : Bool) (channel : Option (Fin 16)) (s : State) : Answer :=
  let l := if south then 1 else 0
  let whole := fun (s : State) =>
    let s := s.modPart p fun x => { x with linkDown := if x.linkDown.contains south then x.linkDown else south :: x.linkDown }
    if (s.part p).linkDown.length = 2 then s.failPart p else s
  .next (match channel with
    | some c =>
      let s := s.setChannel (l * 64 + p.val * 16 + c.val) true
      if mget (fun _ => 0) (s.part p).chanOut l = BitVec.allOnes 16 then whole s else s
    | none => whole s)

end Sys2Proof.Machine
end

