-- ==== Sys2Proof/Machine/Cmds.lean ====
section
/-! DEFINITION. Commands: the descriptor, what each type does when it starts, and when it completes (Host links, commands and the control
complex, R363 to R376; Self-test, counters and trace, R492). -/

namespace Sys2Proof.Machine

/-! ## Descriptors (R367, R372, Tables 10.5, 10.6) -/

/-- Bytes `o` to `o + n - 1` of a descriptor are zero. -/
def dz (d : BitVec 1024) (o n : Nat) : Bool := dsc d o n == 0

def dType (d : BitVec 1024) : Nat := dsc d 0 1
def dBarrier (d : BitVec 1024) : Bool := bitsAt d 8 1 == 1

/-- TYPE and the reserved fields of the header. -/
def headOk (d : BitVec 1024) : Bool := decide (1 ≤ dType d ∧ dType d ≤ 6) && dsc d 1 1 / 4 == 0 && dz d 2 2

def launchOk (d : BitVec 1024) : Bool := dsc d 0x10 8 % 4096 == 0 && decide (dsc d 0x20 2 < 0x8000) && dz d 0x22 2 && dz d 0x30 80

def mvCopy : Nat := 0
def mvPut : Nat := 1
def mvGet : Nat := 2
def mvRdmaWrite : Nat := 3
def mvRdmaRead : Nat := 4

/-- A fabric address: tile aligned, its reserved bits zero (Table 1.6). -/
def fabricOk (a : Nat) : Bool := a % 4096 == 0 && decide (a < 2 ^ 59)

def moveOk (d : BitVec 1024) : Bool :=
  let k := dsc d 0x10 1
  let src := dsc d 0x18 8
  let dst := dsc d 0x20 8
  decide (k ≤ 4) && dsc d 0x12 1 / 4 == 0 && dz d 0x13 1 && decide (1 ≤ dsc d 0x14 4 ∧ dsc d 0x14 4 ≤ 2 ^ 24) && dz d 0x2B 1 && dz d 0x30 80 &&
    (if k = mvGet then fabricOk src else k == mvRdmaRead || src % 4096 == 0) &&
    (if k = mvPut then fabricOk dst else k == mvRdmaWrite || dst % 4096 == 0) &&
    (k != mvRdmaRead || knownFormat (BitVec.ofNat 8 (dsc d 0x11 1)))

/-- The domain that a FENCE DOMAIN names. -/
def fenceWho (d : BitVec 1024) : Option Domain :=
  let who := dsc d 0x12 2
  let c := unpackCore (BitVec.ofNat 9 who)
  match dsc d 0x11 1 with
  | 1 => if who < 512 then c.map Domain.core else none
  | 2 => if who < 512 ∧ who % 8 = 0 then c.map fun x => .cluster x.p x.c else none
  | 3 => if who < 512 ∧ who % 128 = 0 then some (.partition (partNo (who / 128))) else none
  | 4 => if h : who < 16 then some (.context ⟨who, h⟩) else none
  | _ => none

def fenceOk (mgmt : Bool) (d : BitVec 1024) : Bool :=
  decide (dsc d 0x10 1 ≤ 2) && dz d 0x18 104 && (dsc d 0x10 1 != 2 || (mgmt && (fenceWho d).isSome))

def countersOk (d : BitVec 1024) : Bool := dsc d 0x10 8 % 4096 == 0 && dz d 0x24 92

def maintOk (mgmt : Bool) (d : BitVec 1024) : Bool := mgmt && dsc d 0x12 1 / 2 == 0 && dz d 0x13 1 && dz d 0x20 96

/-- The package does not refuse the descriptor under R367. The fields of a COLLECTIVE are checked as it is accepted. -/
def descOk (mgmt : Bool) (d : BitVec 1024) : Bool :=
  headOk d && match dType d with
    | 1 => launchOk d
    | 2 => moveOk d
    | 4 => fenceOk mgmt d
    | 5 => countersOk d
    | 6 => maintOk mgmt d
    | _ => true

/-! ## MOVE (R374) -/

/-- The packet of tile `i` of a MOVE (R284). -/
def movePacket (typ : BitVec 4) (fa : Word) (idx : BitVec 32) (gen : BitVec 16) (i : Nat) (pen : Bool) : Packet :=
  { blankPacket with
    typ := typ, tc := tcTensor, pen := pen, dstEp := faEp fa, offset := faOff fa + BitVec.ofNat 40 (4096 * i), rgen := gen
    seq := BitVec.ofNat 16 (idx.toNat % 256 * 256 + i % 256) }

/-- What a MOVE needs while it starts. -/
structure MoveJob where
  ring : Nat
  idx : BitVec 32
  ctx : Fin 16
  part : Fin 4
  n : Nat
  fmt : BitVec 8

def MoveJob.who (m : MoveJob) : Requester := .command m.ring m.idx
def MoveJob.dom (m : MoveJob) : Nat := domContext m.ctx.val

/-- Ends a command at its start with a status. -/
def State.endCmd (s : State) (ring : Nat) (idx : BitVec 32) (st : BitVec 8) : State := s.modCmd ring idx fun c => c.finish st

/-- Translates the tiles of a side of a MOVE; none ends it with CONFIG_INVALID (R211). -/
def State.moveTiles' (s : State) (m : MoveJob) (ca : Word) (write : Bool) (f : State → List Nat → State) : State :=
  match s.translateTiles .engine m.part m.ctx.val ca write m.n with
  | (s, .ok l) => f s l
  | (s, .error _) => s.endCmd m.ring m.idx stConfig

def State.copyTiles (s : State) (m : MoveJob) (src dst : List Nat) : State :=
  (src.zip dst).foldl (fun s e => s.tileRead e.1 m.dom m.ctx.val m.fmt (.relay m.who e.2 false)) s

def State.putMove (s : State) (m : MoveJob) (src : List Nat) (fa : Word) (pen : Bool) : State :=
  (src.zipIdx).foldl (fun s e =>
    let p := movePacket ptWriteTile fa m.idx (s.gen m.dom) e.2 (pen && e.2 + 1 == m.n)
    s.tileRead e.1 m.dom m.ctx.val m.fmt (.relayOut m.who p m.dom m.ctx.val)) s

def State.getMove (s : State) (m : MoveJob) (fa : Word) (dst : List Nat) : State :=
  (dst.zipIdx).foldl (fun s e =>
    s.issue (some m.ctx) m.dom (.relay m.who e.1 false) (movePacket ptReadTile fa m.idx (s.gen m.dom) e.2 false)) s

/-- Tiles leave by Ethernet without their records; the command is done once the last has left (log entry 52). -/
def State.rdmaOut (s : State) (m : MoveJob) (die : Fin 2) (d : BitVec 1024) (src : List Nat) : State :=
  let r := src.foldl (fun (a : State × List TileData) pa =>
    match a.1.engineTile pa m.ctx.val m.fmt with
    | (s, .ok t) => (s.writeDone m.who, a.2 ++ [t.data])
    | (s, .error e) => (s.failTo e.1 m.who, a.2)) (s, [])
  (r.1.count (148 + 2 * die.val) (4096 * r.2.length)).emit (.rdma die (dsc d 0x28 3) (BitVec.ofNat 32 (dsc d 0x2C 4)) (dsc d 0x20 8) r.2)

/-- Remote data enters with new records (R225): free values (log entry 8). -/
def State.rdmaIn (s : State) (m : MoveJob) (die : Fin 2) (remote : Nat) (dst : List Nat) : State :=
  (dst.zipIdx).foldl (fun s e =>
    let data := BitVec.ofNat 32768 (packNat 8 ((List.range 4096).map fun k => (Config.remoteByte s.freeCtr (remote + 4096 * e.2 + k)).toNat))
    (s.draw.count (149 + 2 * die.val) 4096).tileWrite e.1 m.dom (s.entryImg data 1 m.fmt m.ctx.val) m.who) s

/-- FMT names no format although records are to be made of it. -/
def fmtMissing (fmt : BitVec 8) (src : List Nat) : Bool :=
  !knownFormat fmt && src.any fun pa => match placeOf pa with | .host _ _ => true | _ => false

/-- Starts a MOVE: every tile is translated first. -/
def State.startMove (s : State) (ring : Nat) (idx : BitVec 32) (ctx : Fin 16) (part : Fin 4) (d : BitVec 1024) : State :=
  let m : MoveJob := ⟨ring, idx, ctx, part, dsc d 0x14 4, BitVec.ofNat 8 (dsc d 0x11 1)⟩
  let src : Word := BitVec.ofNat 64 (dsc d 0x18 8)
  let dst : Word := BitVec.ofNat 64 (dsc d 0x20 8)
  let die : Fin 2 := dieOf (dsc d 0x12 1 / 2)
  let s := s.modCmd ring idx fun c => { c with left := m.n }
  match dsc d 0x10 1 with
  | 0 => s.moveTiles' m src false fun s a => s.moveTiles' m dst true fun s b =>
      if fmtMissing m.fmt a then s.endCmd ring idx stConfig else s.copyTiles m a b
  | 1 => s.moveTiles' m src false fun s a =>
      if fmtMissing m.fmt a then s.endCmd ring idx stConfig else s.putMove m a dst (bitsAt d (8 * 0x12) 1 == 1)
  | 2 => s.moveTiles' m dst true fun s b => s.getMove m src b
  | 3 => s.moveTiles' m src false fun s a =>
      if s.ethUp die then s.rdmaOut m die d a else s.endCmd ring idx stLinkLoss
  | _ => s.moveTiles' m dst true fun s b =>
      if s.ethUp die then s.rdmaIn m die (dsc d 0x18 8) b else s.endCmd ring idx stLinkLoss

/-! ## FENCE (R375) -/

/-- Ends the LAUNCH or COLLECTIVE of an index of a ring with FENCED. -/
def State.fenceTarget (s : State) (ring : Nat) (target : BitVec 32) : State :=
  match s.findLaunch ring target with
  | some l => (s.endLaunch l stFenced).settle
  | none => match s.colls.find? fun c => c.ring == ring && c.idx == target with
    | some _ => s.endColl ring target stFenced ccFence
    | none => s

/-- Fences a domain; one inside a domain that is being reset is refused (R448). A core is fenced for failure (Table 15.6). -/
def State.fenceNamed (s : State) (ring : Nat) (idx : BitVec 32) (d : Domain) : State :=
  if s.resetting fun e => domWithin d e then s.endCmd ring idx stFenced
  else match d with
  | .core c => s.failCore c
  | d => s.startReset d false none

/-- RINDEX. -/
def dTarget (d : BitVec 1024) : BitVec 32 := BitVec.ofNat 32 (dsc d 0x14 4)

/-- Starts a FENCE. -/
def State.startFence (s : State) (ring : Nat) (idx : BitVec 32) (d : BitVec 1024) : State :=
  match dsc d 0x10 1, fenceWho d with
  | 1, _ => s.fenceTarget ring (dTarget d)
  | 2, some dom => s.fenceNamed ring idx dom
  | _, _ => s

/-- What a started FENCE waits for is over. -/
def State.fenceReady (s : State) (c : Cmd) : Bool :=
  match dsc c.desc 0x10 1, fenceWho c.desc with
  | 0, _ => s.ringLow c.ring == c.idx
  | 1, _ => s.host.cmds.all fun x => !(x.ring == c.ring && x.idx == dTarget c.desc && x.idx != c.idx && (x.type == 1 || x.type == 3))
  | _, some dom => s.resets.all fun j => !(domWithin dom j.dom && decide (j.step < 6))
  | _, _ => true

/-! ## COUNTERS (R492) -/

/-- The counters of the sets, in index order. -/
def setIndices (set : Nat) : List Nat :=
  (List.range 152).filter fun i =>
    let b := if i < 8 then 0 else if i < 16 then 1 else if i < 24 then 2 else if i < 72 then 3 else if i < 144 then 4 else 5
    set / 2 ^ b % 2 == 1

/-- The snapshot tile. -/
def State.snapshot (s : State) (set : Nat) : TileData :=
  let l := setIndices set
  let cnt := l.map fun i => (mget (fun _ => 0) s.cnt i).toNat
  BitVec.ofNat 32768 (0x4B39434E + 1 * 2 ^ 32 + set * 2 ^ 64 + s.ftc.toNat * 2 ^ 128 + s.ptc.toNat % 2 ^ 32 * 2 ^ 192 + l.length * 2 ^ 224 +
    s.fld rGeom 0 15 * 2 ^ 240 + packNat 64 cnt * 2 ^ 512)

/-- Starts a COUNTERS. -/
def State.startCounters (s : State) (ring : Nat) (idx : BitVec 32) (ctx : Fin 16) (part : Fin 4) (d : BitVec 1024) : State :=
  let set := dsc d 0x18 8
  if 64 ≤ set ∨ dsc d 0x20 4 = 0 then s.endCmd ring idx stConfig
  else match s.translateTiles .engine part ctx.val (BitVec.ofNat 64 (dsc d 0x10 8)) true 1 with
    | (s, .ok [pa]) =>
      let data := s.snapshot set
      let img : TileImg := ⟨data, freshRec data 1 fmtUntyped 0 (s.ownerOf ctx.val) noAnchor⟩
      (s.modCmd ring idx fun c => { c with left := 1 }).tileWrite pa (domContext ctx.val) img (.command ring idx)
    | (s, _) => s.endCmd ring idx stConfig

/-! ## Starting (R365 to R367) -/

/-- The ring may start its next command. -/
def State.ringGoes (s : State) (r : Nat) : Bool :=
  let i := s.ringNext r
  s.phase == phReady && s.ringEn r && !s.ringStopped r && !s.host.halted.contains r && idxBefore i (s.ringTail r) &&
    s.idxDone r (i - BitVec.ofNat 32 (s.ringSize r)) && decide ((s.ringCmds r).length < 64) &&
    !s.resetting fun e => domWithin (.context (ringCtx r)) e

/-- BARRIER and NOT_BEFORE let the command start (R366). -/
def State.descGoes (s : State) (r : Nat) (d : BitVec 1024) : Bool :=
  (!dBarrier d || s.ringLow r == s.ringNext r) && decide (dsc d 8 8 ≤ s.ftc.toNat)

/-- What a type does as it starts. -/
def State.runDesc (s : State) (r : Nat) (i : BitVec 32) (d : BitVec 1024) : State :=
  let ctx := ringCtx r
  let part := s.ringPart r
  if !descOk (s.ringMgmt r) d then s.endCmd r i stConfig
  else match dType d with
    | 1 => s.startLaunch r i ctx part d
    | 2 => s.startMove r i ctx part d
    | 3 => s.acceptColl r i ctx part d
    | 4 => s.startFence r i d
    | 5 => s.startCounters r i ctx part d
    | _ => s.startMaint r i part d

/-- The next command of a ring is started: it is recorded, and the counters are latched. -/
def State.beginCmd (s : State) (r : Nat) (d : BitVec 1024) (st : BitVec 8) : State :=
  let i := s.ringNext r
  let c : Cmd := { ring := r, idx := i, desc := d, start := s.ftc, status := st, warn := 0, detail := 0, left := 0, done := st != 0 }
  (({ s with host := { s.host with cmds := s.host.cmds ++ [c] } }).setRingNext r (i + 1)).latchLog r i 0 0

/-- Starts the next command of a ring with the descriptor given. -/
def State.startWith (s : State) (r : Nat) (d : BitVec 1024) : State :=
  if s.descGoes r d then (s.beginCmd r d 0).runDesc r (s.ringNext r) d else s

/-- Nothing that arrived before is still to be written to the tile (R258, R365). -/
def State.tileQuiet (s : State) (tile : Nat) : Bool := (s.mem.opsOn tile).all fun o => !o.isWhole && !o.isPart

/-- The next descriptor of a ring, with its class (R363, R367); or the status with which the command ends. -/
def State.readDesc (s : State) (r : Nat) : State × Except (BitVec 8) (BitVec 1024 × Class) :=
  let pa := s.ringBase r + (s.ringNext r).toNat % s.ringSize r * 128
  match placeOf pa with
  | .hbm _ _ =>
    match s.engineTile (pa / 4096 * 4096) (r / 4) fmtUntyped with
    | (s, .error e) => (s, .error e.1)
    | (s, .ok t) =>
      let row := pa % 4096 / 64
      let cl := classify t.data t.tcr [row, row + 1] false
      (s.flogTile pa cl t.tcr, .ok (BitVec.ofNat 1024 (bitsAt t.data (8 * (pa % 4096)) 1024), cl))
  | _ => (s, .error stConfig)

/-- COMMAND_START. A descriptor that is TORN_TILE is acted on: R367 names CORRUPT_TILE only. -/
def execCommandStart (ring : Fin 64) (s : State) : Answer :=
  let r := ring.val
  .next (if s.ringGoes r && s.tileQuiet ((s.ringBase r + (s.ringNext r).toNat % s.ringSize r * 128) / 4096) then
    match s.readDesc r with
    | (s', .error st) => s'.beginCmd r 0 st
    | (s', .ok (d, .corrupt _)) => if s.descGoes r d then s'.beginCmd r d stCorrupt else s
    | (s', .ok (d, _)) => if s.descGoes r d then s'.startWith r d else s
  else s)

/-- The row of a type of command: it starts as the next command of its ring, with the descriptor given. -/
def State.typedStart (s : State) (r : Nat) (d : BitVec 1024) (ok : Bool) : State := if ok && s.ringGoes r then s.startWith r d else s

/-- LAUNCH. -/
def execLaunch (ring : Fin 64) (desc : BitVec 1024) (s : State) : Answer := .next (s.typedStart ring.val desc (dType desc == 1))

/-- MOVE_COPY. -/
def execMoveCopy (ring : Fin 64) (desc : BitVec 1024) (s : State) : Answer :=
  .next (s.typedStart ring.val desc (dType desc == 2 && dsc desc 0x10 1 == mvCopy))

/-- MOVE_PUT. -/
def execMovePut (ring : Fin 64) (desc : BitVec 1024) (s : State) : Answer :=
  .next (s.typedStart ring.val desc (dType desc == 2 && dsc desc 0x10 1 == mvPut))

/-- MOVE_GET. -/
def execMoveGet (ring : Fin 64) (desc : BitVec 1024) (s : State) : Answer :=
  .next (s.typedStart ring.val desc (dType desc == 2 && dsc desc 0x10 1 == mvGet))

/-- RDMA_WRITE. -/
def execRdmaWrite (ring : Fin 64) (desc : BitVec 1024) (s : State) : Answer :=
  .next (s.typedStart ring.val desc (dType desc == 2 && dsc desc 0x10 1 == mvRdmaWrite))

/-- RDMA_READ. -/
def execRdmaRead (ring : Fin 64) (desc : BitVec 1024) (s : State) : Answer :=
  .next (s.typedStart ring.val desc (dType desc == 2 && dsc desc 0x10 1 == mvRdmaRead))

/-- FENCE_ORDER. -/
def execFenceOrder (ring : Fin 64) (desc : BitVec 1024) (s : State) : Answer :=
  .next (s.typedStart ring.val desc (dType desc == 4 && dsc desc 0x10 1 == 0))

/-- FENCE_COMMAND. -/
def execFenceCommand (ring : Fin 64) (desc : BitVec 1024) (s : State) : Answer :=
  .next (s.typedStart ring.val desc (dType desc == 4 && dsc desc 0x10 1 == 1))

/-- FENCE_DOMAIN. -/
def execFenceDomain (ring : Fin 64) (desc : BitVec 1024) (s : State) : Answer :=
  .next (s.typedStart ring.val desc (dType desc == 4 && dsc desc 0x10 1 == 2))

/-- COUNTERS. -/
def execCounters (ring : Fin 64) (desc : BitVec 1024) (s : State) : Answer := .next (s.typedStart ring.val desc (dType desc == 5))

/-- MAINT. -/
def execMaint (ring : Fin 64) (desc : BitVec 1024) (s : State) : Answer := .next (s.typedStart ring.val desc (dType desc == 6))

/-- ALL_REDUCE. -/
def execAllReduce (ring : Fin 64) (desc : BitVec 1024) (s : State) : Answer :=
  .next (s.typedStart ring.val desc (dType desc == 3 && dsc desc 0x14 1 == opAllReduce))

/-- REDUCE_SCATTER. -/
def execReduceScatter (ring : Fin 64) (desc : BitVec 1024) (s : State) : Answer :=
  .next (s.typedStart ring.val desc (dType desc == 3 && dsc desc 0x14 1 == opReduceScatter))

/-- ALL_GATHER. -/
def execAllGather (ring : Fin 64) (desc : BitVec 1024) (s : State) : Answer :=
  .next (s.typedStart ring.val desc (dType desc == 3 && dsc desc 0x14 1 == opAllGather))

/-- DISPATCH. -/
def execDispatch (ring : Fin 64) (desc : BitVec 1024) (s : State) : Answer :=
  .next (s.typedStart ring.val desc (dType desc == 3 && dsc desc 0x14 1 == opDispatch))

/-! ## Completing (R251, R368) -/

/-- Everything that the command does is done. -/
def State.cmdReady (s : State) (c : Cmd) : Bool := c.done || (c.type == 4 && s.fenceReady c)

/-- COMMAND_COMPLETE. -/
def execCommandComplete (ring : Fin 64) (idx : BitVec 32) (s : State) : Answer :=
  .next (match s.host.cmds.find? fun c => c.ring == ring.val && c.idx == idx with
    | some c => if s.cmdReady c then s.complete c else s
    | none => s)

end Sys2Proof.Machine
end

