-- ==== Sys2Proof/Machine/Maint.lean ====
section
/-! DEFINITION. The scrubber and the invalidation of translations (Memory levels and tile checking, R209, R228, R233). -/

namespace Sys2Proof.Machine

/-! ## Scrubbing (R228) -/

/-- Tiles of a partition that the scrubber reads in a pass: those of its cluster memories, its reservoir and its HBM tile
areas. -/
def scrubTiles : Nat := 98186240

/-- The tile at a place of the pass; the order is that in which R228 names the levels (DESIGN CHOICE, log entry 34). -/
def scrubTile (p : Fin 4) (i : Nat) : Nat :=
  if i < 49152 then (0x21000000000 + p.val * 0x10000000 + i / 4096 * 0x1000000) / 4096 + i % 4096
  else if i < 573440 then (0x20000000000 + p.val * 0x80000000) / 4096 + (i - 49152)
  else
    let j := i - 573440
    (p.val * 0x8000000000 + j / 16268800 * 0x1000000000) / 4096 + j % 16268800

/-- The scrubber reads a tile as a reader under R222: at once where no other operation is on it. -/
def State.scrubRead (s : State) (p : Fin 4) (tile : Nat) (again : Bool) : State :=
  let quiet := (s.mem.opsOn tile).isEmpty
  let s := s.tileRead (tile * 4096) (domPartition p) 0 fmtUntyped (.scrub p tile again)
  if quiet then (s.readRows tile).readHeader tile else s

/-- A read of the scrubber is under way in the partition. -/
def State.scrubBusy (s : State) (p : Fin 4) : Bool :=
  s.mem.ops.any fun o => match o.who with | .scrub q _ _ => q == p | _ => false

/-- The scrubber's next read: the next tile of the pass, or a tile found torn in it; then the pass ends. -/
def State.scrubNext (s : State) (p : Fin 4) : State :=
  let pos := s.fld (rScrubStat p) 0 32
  if pos < scrubTiles then (s.setFld (rScrubStat p) 0 32 (pos + 1)).scrubRead p (scrubTile p pos) false
  else match (s.part p).scrubTorn with
    | t :: r => (s.modPart p fun x => { x with scrubTorn := r }).scrubRead p t true
    | [] => if s.scrubBusy p then s else (s.bump (rScrubStat p) 48 16).setFld (rScrubStat p) 0 32 0

/-- SCRUB_TILE. -/
def execScrubTile (p : Fin 4) (s : State) : Answer :=
  .next (if s.rbit (rScrubCtl p) 63 && !s.fencedPlace (.reservoir p) then s.scrubNext p else s)

/-! ## Invalidation (R209, R233) -/

/-- A write of MEM_PT_INV: without effect while BUSY is 1; GO sets BUSY. -/
def State.writePtInv (s : State) (p : Fin 4) (v : Word) : State :=
  if s.rbit (rPtInv p) 63 then s
  else
    let s := s.mergeReg (rPtInv p) v
    if bit v 0 then s.setRBit (rPtInv p) 63 true else s

/-- An entry that an invalidation takes out: every entry of CONTEXT, or the page at ADDR. -/
def invalidates (r : Word) (e : TlbEntry) : Bool :=
  e.ctx == fieldN r 52 4 && (bit r 56 || e.page == fieldN r 21 27 * 0x200000 / pageSize e.big)

/-- The invalidation completes. -/
def State.endPtInv (s : State) (p : Fin 4) : State :=
  let r := s.reg (rPtInv p)
  if bit r 63 then
    (s.modPart p fun x => { x with tlb := x.tlb.filter fun e => !invalidates r e }).setRBit (rPtInv p) 63 false
  else s

/-- A write of MEM_PTROOT_n: the changed root is sure to take effect for the context (R209). -/
def State.writePtRoot (s : State) (p : Fin 4) (n : Nat) (v : Word) : State :=
  (s.mergeReg (rPtRoot p n) v).modPart p fun x => { x with tlb := x.tlb.filter fun e => e.ctx != n }

/-- PT_INVALIDATE. -/
def execPtInvalidate (p : Fin 4) (v : Word) (s : State) : Answer :=
  .next (s.onWrite .mgmtCore (rPtInv p) fun s => s.writePtInv p v)

/-- PT_INVALIDATE_DONE. -/
def execPtInvalidateDone (p : Fin 4) (s : State) : Answer := .next (s.endPtInv p)

end Sys2Proof.Machine
end

