-- ==== Sys2Proof/Machine/Update.lean ====
section
/-! DEFINITION. Firmware update: checks, staging, activation, commit and rollback, and the report (Firmware update and field service,
R505 to R519). -/

namespace Sys2Proof.Machine

def State.modUpd (s : State) (f : Upd → Upd) : State := { s with sys := { s.sys with upd := f s.sys.upd } }

def State.modFw (s : State) (f : Fw → Fw) : State := { s with sys := { s.sys with fw := f s.sys.fw } }

/-! ## States and causes (Table 15.10) -/

def usIdle : Nat := 0
def usStaging : Nat := 2
def usStaged : Nat := 3
def usApplying : Nat := 4
def usRolling : Nat := 5

def ucFormat : Nat := 1
def ucTarget : Nat := 2
def ucHw : Nat := 3
def ucTier : Nat := 4
def ucRollback : Nat := 5
def ucRelease : Nat := 6
def ucSignature : Nat := 7
def ucDigest : Nat := 8
def ucSource : Nat := 9
def ucLate : Nat := 10
def ucAborted : Nat := 11
def ucReset : Nat := 12
def ucCheck : Nat := 13
def ucRequested : Nat := 14

def State.updState (s : State) : Nat := s.fld rMgtUpdStat 60 4

def State.setUpd (s : State) (st : Nat) : State := s.setFld rMgtUpdStat 60 4 st

/-! ## Units that run the banks named -/

/-- Both management cores are in COMPARE on the same firmware. -/
def State.pairOn (s : State) : Bool := s.mgmtSt false == mcCompare && s.mgmtSt true == mcCompare && !s.fwDiff

/-- Every port half that is up runs the DSP code of the bank named. -/
def State.halvesOn (s : State) : Bool := s.upHalves.all s.sys.upd.halves.contains

/-- Parts applied on every unit: bit PART - 1. Parts 0x03, 0x06 and 0x07 are applied at ACT_AT. -/
def State.partsOn (s : State) : Nat :=
  (if s.pairOn then 1 else 0) + (if s.sys.upd.onPart = 15 then 2 + 8 else 0) + 4 + (if s.halvesOn then 16 else 0) + 32 + 64

/-- MGT_UPD_STAT as it reads. -/
def State.updStat (s : State) : Word :=
  let u := s.sys.upd
  setField (setField (setField (s.reg rMgtUpdStat) 40 4 u.onPart.toNat) 33 7 u.halves.length) 32 1 (if u.checked.getLsbD 0 then 1 else 0)

/-- MGT_UPD_REL follows the activation record. -/
def State.showRel (s : State) : State :=
  s.setReg rMgtUpdRel (setField (BitVec.ofNat 64 s.sys.fw.floor.toNat) 32 32 s.sys.fw.release.toNat)

/-! ## The report (Table 15.5) -/

/-- The report tile. -/
def State.updReport (s : State) (result : BitVec 8) (cause parts : Nat) : TileData :=
  let u := s.sys.upd
  let blocks := packNat 32 (u.nreset.map fun e => e.1 + e.2 * 65536)
  BitVec.ofNat 32768 (0x4B395552 + 1 * 2 ^ 32 + result.toNat * 2 ^ 48 + cause * 2 ^ 56 + u.oldRel.toNat * 2 ^ 64 + u.release.toNat * 2 ^ 96 +
    (s.reg rMgtUpdAt).toNat * 2 ^ 128 + s.ftc.toNat * 2 ^ 192 + s.sys.fw.floor.toNat * 2 ^ 256 + parts * 2 ^ 288 + u.nreset.length * 2 ^ 296 +
    blocks * 2 ^ 320)

/-- Writes the report. -/
def State.writeReport (s : State) (result : BitVec 8) (cause parts : Nat) : State :=
  s.tileWrite (s.reg rMgtUpdRpt).toNat domPackage (s.mgtTile (s.updReport result cause parts)) .posted

/-- RESULT of an update that ends with a cause to which the manual gives no status. -/
def updResult (cause : Nat) : BitVec 8 := Config.updStatus cause

/-- The update ends: STATE is IDLE, CAUSE and RESULT are shown, and the report is written. -/
def State.endUpdate (s : State) (cause : Nat) (result : BitVec 8) (parts : Nat) : State :=
  let s := s.modReg rMgtUpdStat fun x => setField (setField (setField x 60 4 usIdle) 52 8 cause) 44 8 result.toNat
  s.writeReport result cause parts

/-- Marks every inactive bank empty. -/
def Fw.dropStaged (f : Fw) : Fw :=
  (List.range 7).foldl (fun f i =>
    { f with banks := mput (fun _ => []) f.banks (2 * i + if f.active.getLsbD i then 0 else 1) [] }) f

/-- Discards the staged banks, and ends the update. -/
def State.discard (s : State) (cause : Nat) (result : BitVec 8) : State := (s.modFw Fw.dropStaged).endUpdate cause result 0

/-! ## Checks and staging (R505 to R507) -/

/-- Bytes of tiles at a physical address, each of which classifies GOOD with whole = 1. -/
def State.goodTiles (s : State) (pa : Nat) : Nat → State × Option (List Byte)
  | 0 => (s, some [])
  | n + 1 => match s.engineTile pa 0 fmtUntyped with
    | (s, .ok t) =>
      if classifyTile t == .good then
        match s.goodTiles (pa + 4096) n with
        | (s, some l) => (s, some (bytesOf 32768 t.data 4096 ++ l))
        | (s, none) => (s, none)
      else (s, none)
    | (s, .error _) => (s, none)

/-- A range lies in the window of local endpoint 0. -/
def State.inWindow0 (s : State) (a n : Nat) : Bool :=
  s.winValid 0 && decide (s.winBase 0 ≤ a ∧ a + n ≤ s.winBase 0 + s.winSize 0)

/-- Bank sizes (Table 15.3). -/
def bankSize (part : Nat) : Nat := ([16, 96, 4, 2, 8, 2, 4].getD (part - 1) 0) * 0x100000

/-- The manifest entries of a header. -/
def manifest (b : List Byte) : List PartEnt :=
  (List.range 7).map fun i =>
    let o := 0x28 + 64 * i
    ⟨leAt b o 1, leAt b (o + 2) 2, leAt b (o + 4) 4, leAt b (o + 8) 4, BitVec.ofNat 384 (leAt b (o + 16) 48)⟩

def PartEnt.overlaps (a b : PartEnt) : Bool := decide (a.off < b.off + b.size ∧ b.off < a.off + a.size)

/-- Check 8 of Table 15.4. -/
def manifestOk (b : List Byte) : Bool :=
  let l := manifest b
  ((List.range 7).all fun i => (l.filter fun e => e.part == i + 1).length == 1) &&
    (l.all fun e => e.off % 4096 == 0 && decide (0x2000 ≤ e.off ∧ e.off + e.size ≤ leAt b 0x20 8 ∧ e.size ≤ bankSize e.part)) &&
    (List.range 7).all fun i => (List.range i).all fun j =>
      !(l.getD i ⟨0, 0, 0, 0, 0⟩).overlaps (l.getD j ⟨0, 0, 0, 0, 0⟩)

/-- Check 2. -/
def headerFormOk (b : List Byte) : Bool :=
  leAt b 0 4 == 0x4B394657 && leAt b 4 2 == 1 && leAt b 0xD 1 == 7 && decide (0x2000 ≤ leAt b 0x20 8 ∧ leAt b 0x20 8 ≤ 268435456) &&
    allZero (slice b 0xE 2) && allZero (slice b 0x1C 4) && allZero (slice b 0x145B 2981) &&
    (List.range 7).all fun i => allZero (slice b (0x29 + 64 * i) 1) && allZero (slice b (0x34 + 64 * i) 4)

/-- Check 9. -/
def imageSigned (b : List Byte) : Bool :=
  let m := sha384 (b.take 0x1E8)
  Config.verifyEc Config.elverfortEc m (slice b 0x1E8 ecSigLen) && Config.verifyPq Config.elverfortPq m (slice b 0x248 pqSigLen)

/-- The first check of Table 15.4 after the first that a header fails; 0 for none. -/
def State.headerFails (s : State) (b : List Byte) : Nat :=
  if !headerFormOk b then ucFormat
  else if leAt b 6 2 ≠ 0x0920 then ucTarget
  else if leAt b 8 4 / 2 ^ Config.stepping.val % 2 = 0 then ucHw
  else if s.tier < leAt b 0xC 1 then ucTier
  else if leAt b 0x10 4 < s.sys.fw.floor.toNat then ucRollback
  else if s.sys.fw.release.toNat < leAt b 0x18 4 then ucRelease
  else if !manifestOk b then ucFormat
  else if !imageSigned b then ucSignature
  else 0

/-- RESULT of a header check. -/
def checkStatus (cause : Nat) : BitVec 8 := if cause = ucTier then stLicence else stConfig

/-- What the loader notes of a header. -/
def State.noteHeader (s : State) (b : List Byte) : State :=
  s.modUpd fun _ =>
    { Upd.reset with
      release := BitVec.ofNat 32 (leAt b 0x14 4), rollback := BitVec.ofNat 32 (leAt b 0x10 4), minTier := leAt b 0xC 1
      oldRel := s.sys.fw.release, parts := manifest b }

/-- GO: the header is read and checked (log entry 23). -/
def State.startUpdate (s : State) : State :=
  let a := (s.reg rMgtUpdSrc).toNat
  let s := (s.modUpd fun _ => { Upd.reset with oldRel := s.sys.fw.release }).setReg rMgtUpdStat 0
  if !s.inWindow0 a 0x2000 then s.endUpdate ucSource stConfig 0
  else match s.goodTiles a 2 with
    | (s, none) => s.endUpdate ucSource stConfig 0
    | (s, some b) =>
      let s := s.noteHeader b
      let why := s.headerFails b
      if headerFormOk b && !s.inWindow0 a (leAt b 0x20 8) then s.endUpdate ucSource stConfig 0
      else if why ≠ 0 then s.endUpdate why (checkStatus why) 0
      else s.setUpd usStaging

/-- One part is copied into its inactive bank: the state, and the cause with which staging fails, if it does. -/
def State.stagePart (s : State) (e : PartEnt) : State × Nat :=
  let n := (e.size + 4095) / 4096
  match s.goodTiles ((s.reg rMgtUpdSrc).toNat + e.off) n with
  | (s, none) => (s, ucSource)
  | (s, some b) =>
    let b := b.take e.size
    let s := s.setFld rMgtUpdStat 0 32 (s.fld rMgtUpdStat 0 32 + n)
    if sha384 b = e.digest then
      let i := e.part - 1
      (s.modFw fun f => { f with banks := mput (fun _ => []) f.banks (2 * i + if f.active.getLsbD i then 0 else 1) b }, 0)
    else (s, ucDigest)

/-- The parts in PART order. -/
def State.stageParts (s : State) : List Nat → State × Nat
  | [] => (s, 0)
  | i :: r => match s.sys.upd.parts.find? fun e => e.part == i with
    | none => s.stageParts r
    | some e => match s.stagePart e with
      | (s, 0) => s.stageParts r
      | x => x

/-- STAGING_DONE. -/
def execStagingDone (s : State) : Answer :=
  .next (if s.updState = usStaging then
    match s.stageParts [1, 2, 3, 4, 5, 6, 7] with
    | (s, 0) => if (s.reg rMgtUpdAt).toNat ≤ s.ftc.toNat then s.discard ucLate (updResult ucLate) else s.setUpd usStaged
    | (s, c) => s.discard c stConfig
  else s)

/-! ## Activation (R508, R509, R518) -/

/-- Settings blocks that the firmware now active no longer supports are listed, and their fields take their reset values. -/
def State.resetBlocks (s : State) : State :=
  let old := (settings s.slotUsed).1.filter fun b => !s.blockLive b && b.1 != 0xFF
  let s := s.modUpd fun u => { u with nreset := old.map fun b => (b.1, b.2.1) }
  old.foldl (fun s b =>
    if b.1 = 1 then s.setReg rThmCfg (resetOf rThmCfg)
    else if b.1 = 2 then allParts.foldl (fun s p => s.setFld (rScrubCtl p) 32 16 0x18) s
    else [0, 1].foldl (fun s (d : Fin 2) => s.setReg (rColCfg d) (resetOf (rColCfg d))) s) s

/-- Partitions out of service through failure: they count as applied, and as checked. -/
def State.failedParts (s : State) : BitVec 4 :=
  BitVec.ofNat 4 ((allParts.map fun p => if (s.part p).fenced || (s.part p).railLost then 2 ^ p.val else 0).foldl (· + ·) 0)

/-- Every port half. -/
def allHalves : List Nat := List.range 72

/-- The activation record names the new bank of every part. -/
def State.activate (s : State) : State :=
  let f := s.failedParts
  let s := s.modFw fun w => { w with active := ~~~w.active, old := w.active, release := s.sys.upd.release }
  let s := ((s.modUpd fun u => { u with actAt := s.now, checked := 0, onPart := f, chk2 := f, chk4 := f, halves := [] }).setUpd usApplying).showRel
  s.resetBlocks.restartPair.queueDsp

/-- ACT_AT. -/
def execActAt (s : State) : Answer :=
  .next (if s.updState = usStaged ∧ (s.reg rMgtUpdAt).toNat ≤ s.ftc.toNat then
    (if s.tier < s.sys.upd.minTier then s.discard ucTier stLicence else s.activate)
  else s)

/-! ## Application, commit and rollback (R510 to R515) -/

/-- APPLY: the held partitions of the mask run the parts 0x02 and 0x04 of the banks named. -/
def State.applyParts (s : State) (mask : Nat) : State :=
  if s.updState ≠ usApplying ∧ s.updState ≠ usRolling then s
  else
    let l := allParts.filter fun p => mask / 2 ^ p.val % 2 == 1 && s.heldPart p
    s.modUpd fun u => { u with onPart := l.foldl (fun m p => m ||| BitVec.ofNat 4 (2 ^ p.val)) u.onPart }

/-- The old banks are named again, and every unit on a new part is to return (R513). -/
def State.rollBack (s : State) (cause : Nat) : State :=
  let f := s.failedParts
  let s := s.modFw fun w => { w with active := w.old, release := s.sys.upd.oldRel }
  let s := s.modUpd fun u =>
    { u with actAt := s.now, cause := cause, onPart := ~~~u.onPart ||| f, halves := allHalves.filter fun h => !u.halves.contains h }
  ((s.setUpd usRolling).showRel).restartPair.queueDsp

/-- Commit: the floor is raised, and the old banks are free. -/
def State.commitUpd (s : State) : State :=
  let s := s.modFw fun w => { w.dropStaged with floor := s.sys.upd.rollback, old := w.active }
  s.showRel.endUpdate 0 stOk 127

/-- Every part has passed its check on every unit. -/
def Upd.passed (u : Upd) : Bool := u.checked == 0b1110101#7 && u.chk2 == 15 && u.chk4 == 15

/-- A part has been applied where its check runs. -/
def State.checkDue (s : State) (part : Nat) (p : Fin 4) (pass : Bool) : Bool :=
  let u := s.sys.upd
  if part = 0 then !pass || s.pairOn
  else if part = 1 then u.onPart.getLsbD p.val && (!pass || s.rbit rMgtBoot (52 + p.val))
  else if part = 3 then u.onPart.getLsbD p.val && (!pass || (List.range 6).all fun n => s.fld (rHbmStat p n) 0 4 == 2)
  else if part = 4 then !pass || s.halvesOn
  else if part = 5 ∨ part = 6 then !pass || decide (u.actAt + 10000000000 ≤ s.now)
  else true

/-- A check has passed. -/
def Upd.check (u : Upd) (part : Nat) (p : Fin 4) : Upd :=
  let b : BitVec 4 := BitVec.ofNat 4 (2 ^ p.val)
  if part = 1 then { u with chk2 := u.chk2 ||| b }
  else if part = 3 then { u with chk4 := u.chk4 ||| b }
  else { u with checked := u.checked ||| BitVec.ofNat 7 (2 ^ part) }

/-- PART_CHECK: `part` is PART - 1. -/
def execPartCheck (part : Fin 7) (p : Fin 4) (pass : Bool) (s : State) : Answer :=
  .next (if s.updState = usApplying ∧ s.checkDue part.val p pass = true then
    (if pass then
      let s := s.modUpd fun u => u.check part.val p
      if s.sys.upd.passed then s.commitUpd else s
    else s.rollBack ucCheck)
  else s)

/-- CHECK_S_EXPIRY. -/
def execCheckSExpiry (s : State) : Answer :=
  .next (if s.updState = usApplying ∧ s.pairOn = false ∧ s.sys.upd.actAt + s.fld rMgtUpdCfg 0 16 * 1000000000 ≤ s.now then s.rollBack ucCheck
  else s)

/-- ROLLBACK_DONE: every unit runs the old parts. -/
def execRollbackDone (s : State) : Answer :=
  .next (if s.updState = usRolling ∧ s.pairOn = true ∧ s.sys.upd.onPart = 15 ∧ s.halvesOn = true then
    let s := s.modFw Fw.dropStaged
    s.endUpdate s.sys.upd.cause (updResult s.sys.upd.cause) s.partsOn
  else s)

/-- A write of MGT_UPD_CTL. -/
def State.updWrite (s : State) (v : Word) : State :=
  let s := s.mergeReg rMgtUpdCtl v
  if bit v 63 then (if s.updState = usIdle then s.startUpdate else s)
  else if bit v 62 then
    (if (s.updState = usStaging ∨ s.updState = usStaged) ∧ s.ftc.toNat < (s.reg rMgtUpdAt).toNat then s.discard ucAborted (updResult ucAborted)
    else s)
  else if bit v 61 then (if s.updState = usApplying then s.rollBack ucRequested else s)
  else if bit v 60 then s.applyParts (fieldN v 56 4)
  else s

/-- UPDATE_START. -/
def execUpdateStart (src : RegSource) (v : Word) (s : State) : Answer := .next (s.onWrite src rMgtUpdCtl fun s => s.updWrite v)

/-- APPLY. -/
def execApply (src : RegSource) (v : Word) (s : State) : Answer := .next (s.onWrite src rMgtUpdCtl fun s => s.updWrite v)

/-- ABORT. -/
def execAbort (src : RegSource) (v : Word) (s : State) : Answer := .next (s.onWrite src rMgtUpdCtl fun s => s.updWrite v)

/-- ROLLBACK. -/
def execRollback (src : RegSource) (v : Word) (s : State) : Answer := .next (s.onWrite src rMgtUpdCtl fun s => s.updWrite v)

end Sys2Proof.Machine
end

