-- ==== Sys2Proof/Machine/Ready.lean ====
section
/-! DEFINITION. The end of MGMT, and READY: what they do to an update that a reset or a loss of power met (R420, R422, R515). -/

namespace Sys2Proof.Machine

/-- An update met by a package reset or a loss of power: before ACT_AT it ends with cause RESET, and its report waits for READY; after,
every unit counts as applied (R515). -/
def State.resumeUpdate (s : State) : State :=
  if s.updState = usApplying ∨ s.updState = usRolling then s.modUpd fun u => { u with onPart := 15, halves := allHalves }
  else if s.updState = usIdle then s
  else
    let s := (s.modFw Fw.dropStaged).modUpd fun u => { u with owed := true }
    s.modReg rMgtUpdStat fun x =>
      setField (setField (setField x 60 4 usIdle) 52 8 ucReset) 44 8 (updResult ucReset).toNat

/-- MGMT_PHASE_END. -/
def execMgmtPhaseEnd (aOk bOk : Bool) (s : State) : Answer :=
  .next (if s.goesOn phMgmt && s.sys.boot.verified && s.fld rMgtBoot 56 4 == 0 then
    (if !aOk && !bOk then s.startPackage 4 none else ((s.startPair aOk bOk).resumeUpdate).readStore)
  else s)

/-- READY. -/
def execReady (s : State) : Answer :=
  .next (if s.mayBeReady then
    let s := (s.setPhase phReady 0).setFld rMgtBoot 0 32 ((s.now - s.sys.boot.porAt) / 1000000)
    let s := s.applySettings.startGovernor
    let s := if s.sys.upd.owed then (s.modUpd fun u => { u with owed := false }).writeReport (field (s.reg rMgtUpdStat) 44 8) ucReset 0 else s
    let s := if s.lifeCycle = lfProvisioned ∧ s.operatorSigned = true then s.setFld rMgtLc 61 3 lfDeployed else s
    if s.sys.boot.due then (s.modBoot fun b => { b with due := false }).resetDone .package true else s
  else s)

end Sys2Proof.Machine
end

