-- ==== Sys2Proof/Machine/Observe.lean ====
section
/-! DEFINITION. Latched counters, the Powered Time Counter, the inventory record, and the trace of the application cores (Self-test,
counters and trace, R490 to R503; Firmware update and field service, R522). -/

namespace Sys2Proof.Machine

/-! ## Latches (R493) -/

/-- Latches the counters into OBS_CNT_i. Writes of GO at one tick make one event. -/
def State.latchAll (s : State) : State :=
  if s.fld rObsLatch 0 32 ≠ 0 ∧ s.reg rObsLatchT = s.ftc then s
  else
    let s := (List.range 152).foldl (fun s i => s.setReg (rObsCnt i) (mget (fun _ => 0) s.cnt i)) s
    (s.setReg rObsLatchT s.ftc).modReg rObsLatch fun x => bumpWrap x 0 32

/-- A write of OBS_LATCH. -/
def State.latchWrite (s : State) (v : Word) : State := if bit v 63 then s.latchAll else s

/-- LATCH. -/
def execLatch (src : RegSource) (v : Word) (s : State) : Answer := .next (s.onWrite src rObsLatch fun s => s.latchWrite v)

/-! ## Powered Time Counter and inventory (R499, R522) -/

/-- PTC_TICK: a second has passed with VAUX present; every 60 s the count is stored. -/
def execPtcTick (s : State) : Answer :=
  .next (if s.sys.ptcAt + 1000000000 ≤ s.now ∧ s.sys.boot.lost.contains railVaux = false then
    let n : BitVec 32 := BitVec.ofNat 32 (s.fld rObsPtc 0 32 + 1)
    let at' := s.sys.ptcAt + 1000000000
    let stored := if n.toNat % 60 = 0 then n else s.sys.ptcStored
    { s.setFld rObsPtc 0 32 n.toNat with sys := { s.sys with ptcAt := at', ptcStored := stored } }
  else s)

/-- Spare cores remaining in the package. -/
def State.sparesLeft (s : State) : Nat :=
  (allParts.map fun p => ((List.range 12).filter fun c => s.fld (rCmap p c) 44 4 != 15).length).foldl (· + ·) 0

/-- The entry of an LSM slot, 48 bytes. -/
def State.lsmEntry (s : State) (m : Nat) : Nat :=
  let x := s.lsm m
  s.lsmState m + x.serial.toNat * 2 ^ 32 + s.fld (rLsm m) 0 32 * 2 ^ 160 + x.rated.toNat * 2 ^ 192 + x.backPtc.toNat * 2 ^ 224

/-- The inventory record (Table 15.7), as a number. Its PTC is that of the last refresh. -/
def State.inventory (s : State) : Nat :=
  Config.serial.toNat + s.sys.invPtc.toNat * 2 ^ 128 + s.sys.fw.release.toNat * 2 ^ 160 + s.sys.fw.floor.toNat * 2 ^ 192 +
    s.lifeCycle * 2 ^ 224 + s.tier * 2 ^ 232 + s.sparesLeft * 2 ^ 240 + packNat 384 ((List.range 12).map s.lsmEntry) * 2 ^ 256

/-- INVENTORY_UPDATE: every 60 s. -/
def execInventoryUpdate (s : State) : Answer :=
  let t : BitVec 32 := field (s.reg rObsPtc) 0 32
  .next (if s.sys.invPtc.toNat + 60 ≤ t.toNat then { s with sys := { s.sys with invPtc := t } } else s)

/-! ## Trace (R500 to R503) -/

/-- Bytes of a core's share of its partition's buffer. -/
def State.traceShare (s : State) (p : Fin 4) : Nat := s.fld (rTrcBuf p.val) 48 16 / 8 * 0x200000

/-- Writes a row at NEXT. In MODE wrap a share that is full goes on from its start. -/
def State.traceRow (s : State) (a : AppCore) (row : List Byte) : State :=
  let c := a.p.val * 8 + a.a.val
  let share := s.traceShare a.p
  let next := s.fld (rTrcPtr c) 0 32
  let pa := s.fld (rTrcBuf a.p.val) 21 27 * 0x200000 + a.a.val * share + next
  let s := s.bytesWrite pa domPackage 64 (leNat row) .posted
  if next + 64 < share then s.setFld (rTrcPtr c) 0 32 (next + 64)
  else if s.rbit rTrcCtl 63 then s.setFld (rTrcPtr c) 0 32 share
  else (s.setRBit (rTrcPtr c) 63 true).setFld (rTrcPtr c) 0 32 0

def State.setTrace (s : State) (c : Nat) (row : List Byte) : State :=
  { s with sys := { s.sys with trace := mput (fun _ => []) s.sys.trace c row } }

/-- A packet goes into the row, behind its length byte; a row that it does not fit is closed with zero length bytes first. -/
def State.tracePut (s : State) (a : AppCore) (bytes : List Byte) : State :=
  let c := a.p.val * 8 + a.a.val
  let row := mget (fun _ => []) s.sys.trace c
  let pkt := BitVec.ofNat 8 bytes.length :: bytes
  if row.length + pkt.length < 64 then s.setTrace c (row ++ pkt)
  else if row.length + pkt.length = 64 then (s.traceRow a (row ++ pkt)).setTrace c []
  else (s.traceRow a (row ++ List.replicate (64 - row.length) 0)).setTrace c pkt

/-- The trace of a core runs: it is enabled for the privilege mode, and its share is not a full one in MODE stop. -/
def State.traces (s : State) (a : AppCore) (priv : BitVec 2) : Bool :=
  let c := a.p.val * 8 + a.a.val
  s.rbit rTrcCtl c && s.rbit rTrcCtl (58 + priv.toNat) && decide (s.traceShare a.p ≠ 0) &&
    !(s.rbit rTrcCtl 63 && decide (s.traceShare a.p ≤ s.fld (rTrcPtr c) 0 32))

/-- TRACE_PACKET: `lost` tells that the core's trace queue was full (R502). -/
def execTracePacket (a : AppCore) (priv : BitVec 2) (bytes : List Byte) (lost : Bool) (s : State) : Answer :=
  .next (if !s.traces a priv || decide (63 < bytes.length) then s
  else if lost then s.bump (rTrcPtr (a.p.val * 8 + a.a.val)) 32 16
  else s.tracePut a bytes)

/-- A write of TRC_BUF_p (R503). -/
def State.trcBufWrite (s : State) (p : Fin 4) (v : Word) : State :=
  if s.fld rTrcCtl (8 * p.val) 8 ≠ 0 then s else s.mergeReg (rTrcBuf p.val) v

end Sys2Proof.Machine
end

