-- ==== Sys2Proof/Machine/Tables.lean ====
section
/-! DEFINITION. The endpoint tables and their banks (Package organization, R25; Tensor Fabric, R298 to R302, R315, R316;
Reset, recovery and redundancy, R475, R476). -/

namespace Sys2Proof.Machine

/-! ## Cutover (R300, R302) -/

/-- A pennant that waits to be resent on a stream that has ended is sent as a new one (log entry 28). -/
def State.freshRetries (s : State) (bank : Bool) : State :=
  let old := s.fab.src.filter fun r => r.pkt.rty && r.pkt.bank == bank
  let upd := fun (r : SrcReq) => { r with pkt := { r.pkt with rty := false } }
  let s := { s with fab := { s.fab with src := updWhere (fun r => r.pkt.rty && r.pkt.bank == bank) upd s.fab.src } }
  old.foldl (fun s r => s.streamAnswered bank r.pkt false) s

/-- Ends every open stream of a bank on one die; those with nothing unanswered leave at once. -/
def State.endStreams (s : State) (die : Nat) (bank : Bool) : State :=
  let h := s.half die
  let s := s.setHalf die { h with streams := updWhere (fun e => e.bank == bank) (fun e => { e with ended := true }) h.streams }
  ((s.half die).streams.filter fun e => e.bank == bank && e.unanswered == 0).foldl (fun s e => s.endStream die e) s

/-- The active bank becomes TARGET. -/
def State.cutOver (s : State) : State :=
  let old := s.bank
  let target := s.rbit rBankCtl 1
  let s := (s.setRBit rBankCtl 63 target).setRBit rBankCtl 62 false
  if target = old then s
  else ((s.endStreams 0 old).endStreams 1 old).freshRetries old

/-- CUTOVER. -/
def execCutover (s : State) : Answer :=
  .next (if s.rbit rBankCtl 62 && decide ((s.reg rBankAt).toNat ≤ s.ftc.toNat) then s.cutOver else s)

/-- A write of FAB_BANK_CTL (Table 8.11): ARM arms a cutover to TARGET; a time already passed cuts over at once. -/
def State.bankWrite (s : State) (v : Word) : State :=
  let s := s.setRBit rBankCtl 1 (bit v 1)
  if bit v 0 && bit v 1 != s.bank then
    let s := s.setRBit rBankCtl 62 true
    if (s.reg rBankAt).toNat ≤ s.ftc.toNat then s.cutOver else s
  else s

/-- ARM. -/
def execArm (src : RegSource) (v : Word) (s : State) : Answer := .next (s.onWrite src rBankCtl fun s => s.bankWrite v)

/-! ## Entries (R25, R300, R316, R475) -/

/-- A bank takes no writes while it is active or has requests in flight (R300). -/
def State.bankBusy (s : State) (bank : Bool) : Bool := bank == s.bank || s.inflight bank != 0

def eptDefault : Nat → Word := fun _ => 0

def State.setEpt (s : State) (m : Map Word) : State := { s with fab := { s.fab with ept := m } }

/-- Writes `n` entries from ID `first` on into both copies; entries invalidated by divergence are whole again (R475). -/
def State.writeEntries (s : State) (bank : Bool) (first n : Nat) (f : Nat → Word) : State :=
  let fill := fun (m : Map Word) d => mfill eptDefault m (eptKey d bank first) n fun k => f (k - eptKey d bank 0)
  let clear := fun (m : Map Bool) k => mfill (fun _ => false) m k n fun _ => false
  { s with fab := { s.fab with
      ept := fill (fill s.fab.ept 0) 1
      eptBad := clear (clear s.fab.eptBad (eptKey 0 bank first)) (eptKey 1 bank first)
      eptDiv := clear s.fab.eptDiv ((if bank then 0x80000 else 0) + first) } }

/-- The IDs of a bank with an entry in the north copy, rising. -/
def State.listedIds (s : State) (bank : Bool) : List Nat :=
  s.fab.ept.filterMap fun e => if e.1 / 0x80000 = (if bank then 1 else 0) then some (e.1 % 0x80000) else none

/-- The lowest ID of local endpoint `n` in a bank (R316). -/
def State.lowestId (s : State) (bank : Bool) (n : Nat) : Option Nat :=
  (s.listedIds bank).find? fun id =>
    let e := s.ept 0 bank id
    eValid e && !eSvc e && coordOf (eCoord e) == s.coord && eLep e == n

/-- Sets FAB_LEP_ID_n of a bank (R316). -/
def State.setLepIds (s : State) (bank : Bool) : State :=
  (List.range 64).foldl (fun s n =>
    let (v, id) := match s.lowestId bank n with | some id => (1, id) | none => (0, 0)
    s.modReg (rLepId n) fun x =>
      if bank then setField (setField x 31 1 v) 0 19 id else setField (setField x 63 1 v) 32 19 id) s

/-- A write of FAB_EPT_IDX through an instance (Table 8.15). -/
def State.eptIdxWrite (s : State) (die : Fin 2) (v : Word) : State :=
  let s := s.mergeReg (rEptIdx die) v
  let bank := bit v 61
  let id := fieldN v 0 19
  if !bit v 63 then s
  else if bit v 62 then
    if s.bankBusy bank then s.setRBit (rEptIdx die) 60 true
    else
      let e := s.reg (rEptData die)
      ((s.setRBit (rEptIdx die) 60 false).writeEntries bank id 1 fun _ => e).setLepIds bank
  else s.setReg (rEptData die) (mget eptDefault s.fab.ept (eptKey die.val bank id))

/-- EPT_READ. -/
def execEptRead (die : Fin 2) (src : RegSource) (v : Word) (s : State) : Answer :=
  .next (s.onWrite src (rEptIdx die) fun s => s.eptIdxWrite die v)

/-- EPT_WRITE. -/
def execEptWrite (die : Fin 2) (src : RegSource) (v : Word) (s : State) : Answer :=
  .next (s.onWrite src (rEptIdx die) fun s => s.eptIdxWrite die v)

/-! ## Loads (R315) -/

/-- A write of FAB_EPT_LOAD through an instance (Table 8.17). -/
def State.eptLoadWrite (s : State) (die : Fin 2) (v : Word) : State :=
  if s.rbit (rEptLoad die) 63 then s
  else
    let s := s.mergeReg (rEptLoad die) v
    if bit v 60 then s.modReg (rEptLoad die) fun x => setField (setField x 63 1 1) 62 1 0 else s

/-- EPT_LOAD. -/
def execEptLoad (die : Fin 2) (src : RegSource) (v : Word) (s : State) : Answer :=
  .next (s.onWrite src (rEptLoad die) fun s => s.eptLoadWrite die v)

/-- A tile as a reader at its point of coherence is served it, if it is one that has one and classifies GOOD. -/
def State.goodTile (s : State) (pa : Nat) : Option TileData :=
  if (placeOf pa).stored && pa % 4096 == 0 && !s.failedStack (placeOf pa) then
    let t := s.mem.serve (pa / 4096)
    if classifyTile t = .good then some t.data else none
  else none

/-- The range of a load is legal: it names whole tiles of IDs of the bank, and its source lies in the window of local
endpoint 0. -/
def State.loadOk (s : State) (first n a : Nat) : Bool :=
  decide (1 ≤ n ∧ n ≤ 1024 ∧ first % 512 = 0 ∧ first + 512 * n ≤ 0x80000) && s.rbit (rEpwBase 0) 63 &&
    decide (s.fld (rEpwBase 0) 21 27 * 0x200000 ≤ a ∧
      a + 4096 * n ≤ s.fld (rEpwBase 0) 21 27 * 0x200000 + s.fld (rEpwAttr 0) 0 20 * 0x200000)

/-- Loads `n` tiles; whether it stopped. Entries written before the stop remain. -/
def State.loadTiles (s : State) (bank : Bool) : Nat → Nat → Nat → State × Bool
  | 0, _, _ => (s, false)
  | n + 1, first, a =>
    if s.bankBusy bank then (s, true)
    else match s.goodTile a with
      | none => (s, true)
      | some d =>
        (s.writeEntries bank first 512 fun id => BitVec.ofNat 64 (d.toNat >>> (64 * (id - first)))).loadTiles bank n
          (first + 512) (a + 4096)

/-- The load of an instance ends. -/
def State.eptLoadDone (s : State) (die : Fin 2) : State :=
  let x := s.reg (rEptLoad die)
  let a := s.fld (rEptSrc die) 12 36 * 4096
  let n := fieldN x 48 11
  let first := fieldN x 0 19
  let (s, err) := if s.loadOk first n a then s.loadTiles (bit x 61) n first a else (s, true)
  (s.modReg (rEptLoad die) fun y => setField (setField y 63 1 0) 62 1 (if err then 1 else 0)).setLepIds (bit x 61)

/-- EPT_LOAD_DONE: of the instance whose load is in progress, the north one first. -/
def execEptLoadDone (s : State) : Answer :=
  .next (if s.rbit (rEptLoad 0) 63 then s.eptLoadDone 0
    else if s.rbit (rEptLoad 1) 63 then s.eptLoadDone 1
    else s)

/-! ## The walk (R475) -/

/-- Compares the two copies of an entry: one that is not intact is rewritten from the other; where neither is intact, or
both are and differ, both are invalidated and TABLE_DIVERGED is sent. -/
def State.compareEntry (s : State) (bank : Bool) (id : Nat) : State :=
  let k0 := eptKey 0 bank id
  let k1 := eptKey 1 bank id
  let bad := fun k => mget (fun _ => false) s.fab.eptBad k
  let v := fun k => mget eptDefault s.fab.ept k
  let key := (if bank then 0x80000 else 0) + id
  let copy := fun dst src => { s with fab := { s.fab with
    ept := mput eptDefault s.fab.ept dst (v src), eptBad := mput (fun _ => false) s.fab.eptBad dst false } }
  if bad k0 && !bad k1 then copy k0 k1
  else if !bad k0 && bad k1 then copy k1 k0
  else if (bad k0 && bad k1) || v k0 != v k1 then
    if mget (fun _ => false) s.fab.eptDiv key then s
    else { s with fab := { s.fab with eptDiv := mput (fun _ => false) s.fab.eptDiv key true } }.event 8
      ((if bank then 1 else 0) + id * 2)
  else s

/-- TABLE_WALK: every 100 ms. -/
def execTableWalk (s : State) : Answer :=
  .next (if s.fab.walkAt + 100000000 ≤ s.now then
    let keys := (s.fab.ept.map Prod.fst ++ s.fab.eptBad.map Prod.fst).map (· % 0x100000)
    keys.foldl (fun s k => s.compareEntry (decide (0x80000 ≤ k)) (k % 0x80000)) { s with fab := { s.fab with walkAt := s.now } }
  else s)

end Sys2Proof.Machine
end

