-- ==== Sys2Proof/Machine/Time.lean ====
section
/-! DEFINITION. Fabric time (Self-test, counters and trace, R494 to R497). -/

namespace Sys2Proof.Machine

def State.marker (s : State) (n : Nat) : Marker := mget (fun _ => Marker.reset) s.fab.markers n

/-- TIME_MARKER: the offset is that of the neighbour's FTC to this package's, in sixteenths of a tick (R495). -/
def execTimeMarker (port : Fin 36) (peerFtc : Word) (offset : BitVec 32) (peerLock peerHoldover : Bool)
    (peerHops : BitVec 16) (s : State) : Answer :=
  let m : Marker := ⟨true, peerFtc, offset, peerLock, peerHoldover, peerHops⟩
  .next (if s.portUp port.val then
    { s with fab := { s.fab with markers := mput (fun _ => Marker.reset) s.fab.markers port.val m } }
  else s)

/-- The root is the package at (0, 0, 0), once an installation record names it. -/
def State.isRoot (s : State) : Bool := !s.sys.record.isEmpty && s.coord == ⟨0, 0, 0⟩

/-- Hops between two coordinates of an axis. -/
def axisHops (a b ext : Nat) : Nat :=
  Nat.min ((b + ext - a % ext) % ext) ((a + ext - b % ext) % ext)

/-- Hops to the root. -/
def rootHops (ext c : Coord) : Nat := axisHops c.x 0 ext.x + axisHops c.y 0 ext.y + axisHops c.z 0 ext.z

/-- The up ports of a direction on which a marker has come. -/
def State.markedUp (s : State) (d : Nat) : List Nat := (s.groupUp d).filter fun n => (s.marker n).seen

/-- The neighbour in a direction is locked, or in holdover. -/
def State.timedDir (s : State) (d : Nat) : Bool :=
  (s.markedUp d).any fun n => (s.marker n).lock || (s.marker n).holdover

/-- The parent's direction: one dimension-order step toward the root, or, where that group has no up port, another locked
neighbour no further from the root (R495, R497). -/
def State.parentDir (s : State) : Option Nat :=
  let ext := s.extents
  let me := s.coord
  match nextDir ext me ⟨0, 0, 0⟩ with
  | none => none
  | some d =>
    if !(s.groupUp d).isEmpty then some d
    else (List.range 6).find? fun e =>
      ((s.markedUp e).any fun n => (s.marker n).lock) && decide (rootHops ext (neighbour ext me e) ≤ rootHops ext me)

/-- The average offset over the up ports of a direction, in sixteenths of a tick (R495). -/
def State.avgOffset (s : State) (d : Nat) : Int :=
  let l := s.markedUp d
  (l.foldl (fun (t : Int) n => t + (s.marker n).offset.toInt) 0) / (l.length : Int)

def State.modSync (s : State) (f : Sync → Sync) : State := { s with sys := { s.sys with sync := f s.sys.sync } }

/-- LOCK, shown in OBS_SYNC and in MGT_BOOT. -/
def State.setLock (s : State) (b : Bool) : State := (s.setRBit rObsSync 63 b).setRBit rMgtBoot 51 b

/-- Steps the FTC by an offset in sixteenths of a tick. -/
def State.stepFtc (s : State) (off : Int) : State := { s with ftc := s.ftc + BitVec.ofInt 64 (off / 16) }

/-- A rate held to R496. -/
def heldRate (r : Int) : Int := if r < -100 then -100 else if 100 < r then 100 else r

/-- No parent: the package runs at its last steered rate and shows HOLDOVER (R497). -/
def State.holdover (s : State) : State :=
  let s := if s.rbit rObsSync 62 then s else s.modSync fun y => { y with holdAt := s.now }
  (s.setRBit rObsSync 62 true).setFld rObsSync 57 3 0

/-- An update against the parent in direction `d`. -/
def State.steerTo (s : State) (d : Nat) : State :=
  let off := s.avgOffset d
  let hops := ((s.markedUp d).head?.map fun n => (s.marker n).hops.toNat + 1).getD 0
  let hold := (s.markedUp d).any fun n => (s.marker n).holdover
  let s := if hold && !s.rbit rObsSync 62 then s.modSync fun y => { y with holdAt := s.now } else s
  let s := (((s.setRBit rObsSync 62 hold).setFld rObsSync 57 3 (d + 1)).setFld rObsSync 32 16 hops).modReg rObsSync
    fun x => setField x 0 32 (BitVec.ofInt 32 off).toNat
  if !s.sys.sync.stepped && s.phase != phReady then
    (s.stepFtc off).modSync fun y => { y with stepped := true, good := 0 }
  else
    let ok : Bool := decide (off.natAbs ≤ 64)
    let s := s.modSync fun y => { y with rate := heldRate (Config.steer off), good := if ok then y.good + 1 else 0 }
    if 100 ≤ s.sys.sync.good then s.setLock true else s

/-- The root at LINKS takes the time of a neighbour that is locked or in holdover (R494). -/
def State.rootTakes (s : State) : State :=
  if s.rbit rObsSync 60 ∨ s.phase ≠ phLinks then s
  else match (List.range 6).find? fun d => s.timedDir d with
    | some d => ((s.stepFtc (s.avgOffset d)).setRBit rObsSync 60 true).setLock true
    | none => s

/-- FTC_STEER: every 1 ms (R495 to R497). -/
def execFtcSteer (s : State) : Answer :=
  .next (if s.sys.sync.steerAt + 1000000 ≤ s.now then
    let s := s.modSync fun y => { y with steerAt := s.now }
    if s.sys.record.isEmpty then s
    else if s.isRoot then (s.setRBit rObsSync 61 true).rootTakes
    else match s.parentDir with
      | some d => if (s.markedUp d).isEmpty then s else s.steerTo d
      | none => s.holdover
  else s)

/-- HOLDOVER_EXPIRY: LOCK clears after 60 s of holdover (R497). -/
def execHoldoverExpiry (s : State) : Answer :=
  .next (if s.rbit rObsSync 62 && decide (s.sys.sync.holdAt + 60000000000 ≤ s.now) then s.setLock false else s)

/-- A write of OBS_FTC_SET: on the root, once (R494). -/
def State.ftcWrite (s : State) (v : Word) : State :=
  if s.isRoot && !s.rbit rObsSync 60 then
    (({ s with ftc := v }.setRBit rObsSync 60 true).setRBit rObsSync 61 true).setLock true
  else s

/-- FTC_SET. -/
def execFtcSet (src : RegSource) (v : Word) (s : State) : Answer := .next (s.onWrite src rObsFtcSet fun s => s.ftcWrite v)

end Sys2Proof.Machine
end

