-- ==== Sys2Proof/Machine/RegMap.lean ====
section
/-! DEFINITION. Control space as a whole: what a read of any address returns, and what a write does (R4 to R8, R38 to R40,
R117, R118, R186, R281, R313, R356, R386, R444, R478). -/

namespace Sys2Proof.Machine

/-- The number of the register at an address among `n` from `base` on, `stride` apart. -/
def regNo (base stride n a : Nat) : Option Nat :=
  if base ≤ a ∧ (a - base) % stride = 0 ∧ (a - base) / stride < n then some ((a - base) / stride) else none

/-- Runs `f` on the number of the register, if the address is that of one. -/
def onRegs {α : Type} (base stride n a : Nat) (f : Nat → α) (rest : α) : α :=
  match regNo base stride n a with
  | some i => f i
  | none => rest

/-! ## The arrays of a partition's instance of CORE (Table 3.9) -/

/-- The partition of an address in a block with an instance for each partition. -/
def instPart (a : Nat) : Fin 4 := ⟨a / 0x400000 % 4, Nat.mod_lt _ (by decide)⟩

/-- The die of an address in a block with an instance for each I/O die. -/
def instDie (a : Nat) : Fin 2 := ⟨a / 0x800000 % 2, Nat.mod_lt _ (by decide)⟩

/-- The core of entry `c * 8 + k` of partition `p` (R40). -/
def entryCore (p : Fin 4) (i : Nat) : CoreAddr := ⟨p, ⟨i / 8 % 12, Nat.mod_lt _ (by decide)⟩, ⟨i % 8, Nat.mod_lt _ (by decide)⟩⟩

def stateCode : CoreSt → Nat
  | .stopped => 0
  | .run => 1
  | .barrier => 2
  | .fault => 3
  | .fenced => 4

/-- CORE_CSTAT (Table 3.10). -/
def Core.cstat (k : Core) : Word :=
  setField (setField (setField (setField 0 56 8 k.exc.toNat) 24 16 k.span.toNat) 8 16 k.pc.toNat) 0 4 (stateCode k.st)

/-- The 64-bit word `w` of a span-entry record (Table 5.5). -/
def SpanRec.word (r : SpanRec) (w : Nat) : Word :=
  let head := setField (setField 0 32 16 r.next.toNat) 0 32 r.span.toNat
  if w = 0 then head
  else if w = 1 then r.stamp
  else if w < 33 then mget (fun _ => 0) r.s (w - 1)
  else if w < 47 then
    let p := mget (fun _ => 0) r.p ((w - 33) / 2 + 1)
    if (w - 33) % 2 = 0 then p.setWidth 64 else (p >>> 64).setWidth 64
  else if w < 51 then
    BitVec.ofNat 64 (packNat 16 ((List.range 4).map fun j => (mget (fun _ => 0) r.q ((w - 47) * 4 + j)).toNat))
  else if w = 63 then (if r.valid then ~~~head else 0)
  else 0

/-- A register of partition p's instance of CORE, at an offset from 0x10000 on; none where there is none. -/
def State.coreReg (s : State) (p : Fin 4) (o : Nat) : Option Word :=
  let arr := fun (n : Nat) (f : Core → Word) (rest : Option Word) =>
    onRegs (0x10000 + n * 0x400) 8 96 o (fun i => some (f (s.core (entryCore p i)))) rest
  arr 0 Core.cstat <| arr 1 Core.flags <| arr 2 Core.floor <| arr 3 Core.beatLim <| arr 4 Core.beatCnt <| arr 5 Core.rate <|
  arr 6 Core.code <| arr 7 Core.faultReg <| arr 8 Core.faultAddr <|
  onRegs 0x20000 8 12288 o (fun i =>
    let t := s.store (entryCore p (i / 128))
    some (if i % 128 < 64 then t.rec0.word (i % 64) else t.rec1.word (i % 64))) none

/-! ## Reads -/

/-- CTL_CTX_STAT_n: INFLIGHT counts the commands started and not completed. -/
def State.ctxStat (s : State) (n : Nat) : Word :=
  setField (s.reg (rCtxStat n)) 16 16 (s.host.cmds.filter fun c => c.ring / 4 == n).length

/-- FAB_BANK_STAT (Table 8.13). -/
def State.bankStat (s : State) : Word :=
  let held := fun b => min (s.inflight b) 0xFFFFFF
  let idle := fun b => if s.bankBusy b then 0 else 1
  setField (setField (setField (setField 0 40 24 (held false)) 16 24 (held true)) 1 1 (idle true)) 0 1 (idle false)

/-- The collectives of a phase. -/
def State.collsIn (s : State) (ph : CollPhase) : List Coll := s.colls.filter fun c => c.phase == ph

/-- COL_STAT (Table 9.8): both engines hold the same slots. -/
def State.colStat (s : State) : Word :=
  let held := s.slotsHeld fun _ => true
  setField (setField (setField (setField 0 48 16 (4096 - held)) 32 16 held) 24 8 (s.collsIn .running).length) 16 8 (s.collsIn .waiting).length

/-- COL_HEAD (Table 9.9): the lowest waiting collective. -/
def State.colHead (s : State) : Word :=
  let w := s.collsIn .waiting
  match w.find? fun c => w.all fun x => decide (c.id.toNat ≤ x.id.toNat) with
  | some c => setField (setField (setField 0 32 32 c.id.toNat) 31 1 1) 0 16 c.slots
  | none => 0

/-- COL_CTX_n (Table 9.12). -/
def State.colCtx (s : State) (n : Nat) : Word :=
  let asked := (((s.collsIn .waiting).filter fun c => c.ctx.val == n).map Coll.slots).foldl (· + ·) 0
  setField (setField 0 32 16 (s.slotsHeld fun c => c.ctx.val == n)) 16 16 asked

/-- FAB_PTRK of a die: the entries of its stream table and of its tracker in use (Table 8.21). -/
def State.ptrk (s : State) (d : Fin 2) : Word :=
  let h := s.half d.val
  setField (setField (s.reg (rPtrk d)) 48 16 h.streams.length) 32 16 h.trackers.length

/-- The value of the register at a canonical address as it reads; an address at which no register is defined reads zero (R6). -/
def State.regValue (s : State) (a : Nat) : Word :=
  if 0xF000000 ≤ a ∧ a % 0x400000 ≥ 0x10000 then (s.coreReg (instPart a) (a % 0x400000)).getD 0
  else if a = rObsFtc then s.ftc
  else if a = rPwrHb then s.hbReg
  else if a = rThmCool then setField (s.reg rThmCool) 0 32 s.coolAge
  else if a = rMgtUpdStat then s.updStat
  else if a = rBankStat then s.bankStat
  else if a = rPtrk 0 ∨ a = rPtrk 1 then s.ptrk (instDie a)
  else if a = rColStat 0 ∨ a = rColStat 1 then s.colStat
  else if a = rColHead 0 ∨ a = rColHead 1 then s.colHead
  else
    onRegs (rMgtInv 0) 8 512 a (fun i => BitVec.ofNat 64 (s.inventory / 2 ^ (64 * i))) <|
    onRegs (rCtxUse 0) 0x20 16 a s.ctxUse <| onRegs (rCtxStat 0) 0x20 16 a s.ctxStat <|
    onRegs (rColCtx 0 0) 8 16 a s.colCtx <| onRegs (rColCtx 1 0) 8 16 a s.colCtx <|
    if (regRow a).isSome then s.reg a else 0

/-- The die whose HST_HERR counts an access: that of the PCIe port it comes by, else the north die (DESIGN CHOICE, log entry 56). -/
def herrDie : RegSource → Fin 2
  | .pf p => p
  | _ => 0

/-- Counts an access that is not a 64-bit access to an 8-byte-aligned address (R5). -/
def State.countMisalign (s : State) (src : RegSource) : State := s.bump (rHstHerr (herrDie src)) 48 16

/-- The access is a 64-bit access to an 8-byte-aligned address (R5). -/
def wholeReg (a size : Nat) : Bool := size == 8 && a % 8 == 0

/-- A read of control space. One that is not served returns zero (log entry 26). -/
def State.readReg (s : State) (src : RegSource) (a size : Nat) : State × Word :=
  if !wholeReg a size then (s.countMisalign src, 0)
  else (s, if s.serves src (canonAddr a) then s.regValue (canonAddr a) else 0)

/-! ## Writes -/

/-- A write of a register whose field takes values from `lo` to `hi` only: another value leaves the field as it is. -/
def keepField (old v : Word) (at' w lo hi : Nat) : Word :=
  if lo ≤ fieldN v at' w ∧ fieldN v at' w ≤ hi then v else setField v at' w (fieldN old at' w)

/-- A write of a register with fields that take some values only; each field is its place, width and bounds. -/
def State.writeBounded (s : State) (a : Nat) (v : Word) (fs : List (Nat × Nat × Nat × Nat)) : State :=
  s.mergeReg a (fs.foldl (fun v f => keepField (s.reg a) v f.1 f.2.1 f.2.2.1 f.2.2.2) v)

/-- A write of CORE_CODE or CORE_FLAGS of a core (R8, R118); the other arrays take no writes. -/
def State.writeCoreReg (s : State) (p : Fin 4) (o : Nat) (v : Word) : State :=
  onRegs 0x10400 8 96 o (fun i => s.modCore (entryCore p i) fun k => { k with flags := regMerge k.flags v 0 (fb 3 0) }) <|
  onRegs 0x11800 8 96 o (fun i => s.modCore (entryCore p i) fun k =>
    if k.st = .stopped ∧ fieldN v 0 5 + fieldN v 8 8 ≤ 32 then { k with code := regMerge k.code v (fb 15 8 ||| fb 4 0) 0 } else k) s

/-- A write of a context's route registers: the halves agree again (R313, R476). -/
def State.routeWrite (s : State) (a : Nat) (n : Nat) (v : Word) : State :=
  let left := s.fab.ctxDiff.filter fun c => c.val != n
  let s := s.mergeReg a v
  { s with fab := { s.fab with ctxDiff := left } }

/-- Takes the write of the ports and modules of a die. -/
def State.writeLink (s : State) (a : Nat) (v : Word) (rest : State) : State :=
  let d := (instDie a).val
  let acked := Config.lsmAck s.freeCtr
  onRegs (rPort (18 * d)) 0x20 18 a (fun j => s.portEnable (18 * d + j) (bit v 49)) <|
  onRegs (rLsmCtl (6 * d)) 8 6 a (fun j => s.draw.lsmCtl (6 * d + j) v acked) rest

/-- A write of a register of a partition's instance of RST, MEM or TCK. -/
def State.writePart (s : State) (a : Nat) (v : Word) (rest : State) : State :=
  let p := instPart a
  if a = rRstCtl p then s.rstWrite p v
  else if a = rPtInv p then s.writePtInv p v
  else if a = rScrubCtl p then s.writeBounded a v [(32, 16, 1, 8760)]
  else onRegs (rPtRoot p 0) 8 16 a (fun n => s.writePtRoot p n v) rest

/-- A write of a register of an I/O die's instance of FAB or COL. -/
def State.writeDie (s : State) (a : Nat) (v : Word) (rest : State) : State :=
  let d := instDie a
  if a = rEptIdx d then s.eptIdxWrite d v
  else if a = rEptLoad d then s.eptLoadWrite d v
  else if a = rColCfg d then s.writeBounded a v [(32, 16, 1, 0xFFFF), (16, 16, 1, 0xFFFF), (0, 16, 1, 0xFFFF)]
  else rest

/-- A write of a register of a package block that has a rule of its own. -/
def State.writePkg (s : State) (src : RegSource) (a : Nat) (v : Word) (rest : State) : State :=
  if a = rPwrEnvCtl then s.envCtlWrite src v
  else if a = rPwrHb then s.hbWrite v
  else if a = rThmCfg then s.writeBounded a v [(56, 8, 85, 105), (48, 8, 75, 95)]
  else if a = rThmCool then s.coolWrite v
  else if a = rObsFtcSet then s.ftcWrite v
  else if a = rObsLatch then s.latchWrite v
  else if a = rObsLogCfg then s.logCfgWrite v
  else if a = rBstSched then s.writeBounded a v [(32, 16, 1, 8760), (16, 16, 1, 3600)]
  else if a = rBankCtl then s.bankWrite v
  else if a = rMgtStageCtl then s.stageWrite v
  else if a = rMgtRst then s.mgtRstWrite v
  else if a = rMgtPeerFail then s.peerWrite v
  else if a = rMgtPair then s.pairWrite v
  else if a = rMgtDumpCfg then s.dumpCfgWrite v
  else if a = rMgtUpdCtl then s.updWrite v
  else if a = rMgtUpdAt then (if s.updState = usIdle then s.mergeReg a v else s)
  else if a = rMgtUpdCfg then s.writeBounded a v [(0, 16, 10, 3600)]
  else
    onRegs (rTrcBuf 0) 8 4 a (fun i => s.trcBufWrite (partNo i) v) <|
    onRegs (rRingCfg 0) 0x20 64 a (fun r => s.ringWrite src r v) <|
    onRegs (rCqCfg 0) 0x20 64 a (fun r => s.cqWrite r v) <|
    onRegs (rRingDb 0) 0x20 64 a (fun r => s.dbWrite src r v) <|
    onRegs (rCtxStat 0) 0x20 16 a (fun n => s.ctxWrite ⟨n % 16, Nat.mod_lt _ (by decide)⟩ v) <|
    onRegs (rEpwBase 0) 0x10 64 a (fun n => s.winWrite n v) <|
    onRegs (rEpwAttr 0) 0x10 64 a (fun n => s.attrWrite n v) <|
    onRegs (rCtxSeed 0) 0x10 16 a (fun n => s.routeWrite a n v) <|
    onRegs (rCtxBox 0) 0x10 16 a (fun n => s.routeWrite a n v) rest

/-- A write that reaches the register at a canonical address: by the register's own rule where it has one, else by the
access codes of its fields (R8). -/
def State.regEffect (s : State) (src : RegSource) (a : Nat) (v : Word) : State :=
  if 0xF000000 ≤ a then s.writeCoreReg (instPart a) (a % 0x400000) v
  else s.writePkg src a v <| s.writePart a v <| s.writeDie a v <| s.writeLink a v <| s.mergeReg a v

/-- A write to control space (R5, R6). -/
def State.writeReg (s : State) (src : RegSource) (a size : Nat) (v : Word) : State :=
  if wholeReg a size then s.onWrite src (canonAddr a) fun s => s.regEffect src (canonAddr a) v
  else s.countMisalign src

/-- REG_WRITE. -/
def execRegWrite (src : RegSource) (addr : BitVec 28) (size : Nat) (v : Word) (s : State) : Answer :=
  .next (s.writeReg src addr.toNat size v)

/-! ## MGMT (R281) -/

/-- The management pair performs the access: OFFSET is the address, COLL bit 0 marks a write of DATA8; RESP8 carries what the
register reads. -/
def State.mgmtAccess (s : State) (port : Nat) (p : Packet) : State :=
  let a := p.offset.toNat
  if 2 ^ 28 ≤ a then s.respond port (responseTo p ptResp8 stOk 0 .none)
  else if p.coll.getLsbD 0 then (s.writeReg .fabricMgr a 8 p.data8).respond port (responseTo p ptResp8 stOk 0 .none)
  else
    let r := s.readReg .fabricMgr a 8
    r.1.respond port (responseTo p ptResp8 stOk r.2 .none)

/-- A MGMT request arrives at this package. -/
def State.mgmtComes (s : State) (port : Nat) (p : Packet) : State :=
  if p.typ = ptMgmt then s.ingress port p fun s =>
    if p.srcEp = s.fmEp ∧ s.lepOf (port / 18) p = 0 then s.mgmtAccess port p else s.refuse port p stIsolation
  else s

/-- MGMT. -/
def execMgmt (port : Fin 36) (pkt : Packet) (s : State) : Answer := .next (s.mgmtComes port.val pkt)

end Sys2Proof.Machine
end

