-- ==== Sys2Proof/Machine/Kotan.lean ====
section
/-! DEFINITION. The Kotan custom instructions of the application cores (Host links, commands and the control complex, R383 to
R385). An address is the physical one: Sv48 translation lies before these instructions. An instruction that has to wait
changes nothing, and comes again. -/

namespace Sys2Proof.Machine

/-! ## Running an instruction -/

/-- The application cores of a partition run: bring-up has come to CORES, and the partition is not fenced or being reset
(Table 12.2, R449). -/
def State.appRuns (s : State) (p : Fin 4) : Bool :=
  (s.phase == phCores || s.phase == phReady) && !(s.part p).fenced && !(s.part p).railLost &&
    !s.resetting fun d => d == .package || d == .partition p

/-- The trap of an instruction in a mode that Table 10.10 does not permit (R384). -/
def modeTrap : Priv → Option Trap
  | .m | .hs => none
  | .u => some .illegal
  | .vs | .vu => some .virtual

def State.raise (s : State) (a : AppCore) (t : Trap) : State := s.setApp a { s.app a with trap := some t }

/-- Writes rd; x0 discards. The instruction has raised no trap. -/
def State.setX (s : State) (a : AppCore) (rd : BitVec 5) (v : Word) : State :=
  s.setApp a { x := if rd = 0 then (s.app a).x else mput (fun _ => 0) (s.app a).x rd.toNat v, trap := none }

/-- The instruction has completed and writes no register. -/
def State.noX (s : State) (a : AppCore) : State := s.setApp a { s.app a with trap := none }

/-- Runs an instruction that M-mode and HS-mode alone may run. -/
def State.inMonitor (s : State) (a : AppCore) (priv : Priv) (f : State → State) : State :=
  if s.appRuns a.p then match modeTrap priv with
    | some t => s.raise a t
    | none => f s
  else s

/-! ## Order -/

/-- The core that stands for the application cores of a partition as a party of a scope (R385). -/
def partyCore (p : Fin 4) : CoreAddr := ⟨p, 0, 0⟩

/-- Every write that the application cores of a partition have sent to the memory of a scope has been performed (R162). -/
def State.appReleased (s : State) (p : Fin 4) (sc : Nat) : Bool :=
  s.mem.ops.all fun o => o.dom != domPartition p || !inScope sc (partyCore p) (placeOf (o.tile * 4096))

/-- A read by an application core may be served: no whole-tile write that came before stands unopened on the tile, nor a
write of the partition's own application cores (R222, R247). -/
def State.readGoes (s : State) (p : Fin 4) (tile : Nat) : Bool :=
  (s.mem.opsOn tile).all fun o => !(o.isWhole && !o.opened) && o.dom != domPartition p

/-- The scopes that KT.SREL and KT.LACQ take. -/
def kotanScope (sc : BitVec 3) : Bool := sc == 2 || sc == 3 || sc == 4

/-- An access that R29 or R30 refuses: reported as an unmapped access, and an access fault (PRESUMED, log entry 57). -/
def State.refuseApp (s : State) (a : AppCore) (pa : Nat) (t : Trap) : State := (s.xlateErr a.p xReserved 0 pa).raise a t

/-- The place can be reached: it is not fenced, and the port of a host window is up. -/
def State.reaches (s : State) (pl : Place) : Bool :=
  !s.fencedPlace pl && match pl with | .host p _ => s.pcieUp p | _ => true

/-! ## Check areas (R31, R204): the application cores alone can name one, by its physical address -/

/-- The tile whose record lies at an offset of a stack; none in the reserved end of the check area. -/
def recordTile (p : Fin 4) (st off : Nat) : Option Nat :=
  let t := (off - tileArea) / 128
  if t < 16268800 then some ((p.val * 0x8000000000 + st * 0x1000000000) / 4096 + t) else none

/-- A record from its 128 bytes. -/
def recOfBytes (l : List Byte) : TileRec :=
  ⟨BitVec.ofNat 896 (leAt l 0 112), BitVec.ofNat 32 (leAt l 112 4), BitVec.ofNat 32 (leAt l 116 4), BitVec.ofNat 8 (leAt l 120 1),
    BitVec.ofNat 8 (leAt l 121 1), BitVec.ofNat 24 (leAt l 122 3), BitVec.ofNat 16 (leAt l 125 2)⟩

/-- The eight bytes of a stored record at an offset of the stack. -/
def Mem.recordWord (m : Mem) (tile off : Nat) : Word := BitVec.ofNat 64 (leAt (recBytes (m.recAt tile)) (off % 128) 8)

/-- Stores eight bytes of a record. -/
def Mem.storeRecord (m : Mem) (tile off : Nat) (v : Word) : Mem :=
  let l := recBytes (m.recAt tile)
  m.setRec tile (recOfBytes (l.take (off % 128) ++ bytesOf 64 v 8 ++ l.drop (off % 128 + 8)))

/-! ## KT.SREL, KT.LACQ -/

/-- The store of KT.SREL, once everything before it is visible at its scope. -/
def State.appStore (s : State) (a : AppCore) (pa : Nat) (v : Word) : State :=
  match placeOf pa with
  | .control o => (s.writeReg .runtime o 8 v).noX a
  | pl =>
    if pa % 8 ≠ 0 then s.raise a .storeMisaligned
    else if let .check p st off := pl then
      match recordTile p st off with
      | some tile => if s.fencedPlace pl then s.raise a .storeFault else { s with mem := s.mem.storeRecord tile off v }.noX a
      | none => s.refuseApp a pa .storeFault
    else if !s.admits (.app a) pl then s.refuseApp a pa .storeFault
    else if !s.reaches pl then s.raise a .storeFault
    else (s.word8Write pa (domPartition a.p) v .posted).noX a

/-- Eight bytes at a place that has a point of coherence, read as they stand (R222, R242). -/
def State.word8Now (s : State) (pa : Nat) : State × Word :=
  let s := ((s.landSome (pa / 4096)).countUncorr (placeOf pa)).countRows (placeOf pa) false 1
  (s, BitVec.ofNat 64 (s.mem.num pa 8))

/-- The load of KT.LACQ. -/
def State.appLoad (s : State) (a : AppCore) (rd : BitVec 5) (pa : Nat) : State :=
  match placeOf pa with
  | .control o => let r := s.readReg .runtime o 8; r.1.setX a rd r.2
  | pl =>
    if pa % 8 ≠ 0 then s.raise a .loadMisaligned
    else if let .check p st off := pl then
      match recordTile p st off with
      | some tile => if s.fencedPlace pl then s.raise a .loadFault else s.setX a rd (s.mem.recordWord tile off)
      | none => s.refuseApp a pa .loadFault
    else if !s.admits (.app a) pl then s.refuseApp a pa .loadFault
    else if !s.reaches pl then s.raise a .loadFault
    else match pl with
    | .coreLocal c off =>
      let v := BitVec.ofNat 64 (s.mem.localNum (s.physD c) off 8)
      (s.countRows pl false 1).setX a rd v
    | .host port off =>
      let v := BitVec.ofNat 64 (hostBytes s.freeCtr off 8)
      (s.draw.count (145 + 2 * port.val) 8).setX a rd v
    | _ =>
      if s.readGoes a.p (pa / 4096) then let r := s.word8Now pa; r.1.setX a rd r.2
      else s

/-- KT.SREL. -/
def execKtSrel (a : AppCore) (_priv : Priv) (scope : BitVec 3) (rs1 rs2 : Word) (s : State) : Answer :=
  .next (if s.appRuns a.p then
    if !kotanScope scope then s.raise a .illegal
    else if s.appReleased a.p scope.toNat then s.appStore a rs1.toNat rs2
    else s
  else s)

/-- KT.LACQ. -/
def execKtLacq (a : AppCore) (_priv : Priv) (scope : BitVec 3) (rd : BitVec 5) (rs1 : Word) (s : State) : Answer :=
  .next (if s.appRuns a.p then
    if !kotanScope scope then s.raise a .illegal else s.appLoad a rd rs1.toNat
  else s)

/-! ## KT.DBELL, KT.FTC -/

/-- KT.DBELL: a release at package scope, then the doorbell. -/
def execKtDbell (a : AppCore) (priv : Priv) (rd : BitVec 5) (rs1 rs2 : Word) (s : State) : Answer :=
  .next (s.inMonitor a priv fun s =>
    if s.appReleased a.p 3 then
      let r := fieldN rs1 0 6
      let tail : BitVec 32 := field rs2 0 32
      let v : Word := if s.doorOk .control r tail then 0 else 1
      (s.doorbell .control r tail).setX a rd v
    else s)

/-- KT.FTC. -/
def execKtFtc (a : AppCore) (_priv : Priv) (rd : BitVec 5) (s : State) : Answer :=
  .next (if s.appRuns a.p then s.setX a rd s.ftc else s)

/-! ## KT.TCHK -/

/-- What KT.TCHK returns: status code, row, GEN. The row of a tile that is GOOD is none. -/
def tchkValue (cl : Class) (gen : BitVec 32) : Word :=
  let v := match cl with
    | .good => setField (setField 0 0 8 stOk.toNat) 8 7 127
    | .torn => setField (setField 0 0 8 stTorn.toNat) 8 7 127
    | .corrupt r => setField (setField 0 0 8 stCorrupt.toNat) 8 7 r
  setField v 32 32 gen.toNat

/-- The address is that of a tile of cluster memory, a reservoir or an HBM tile area (R385). -/
def tileAt (pa : Nat) : Bool := pa % 4096 == 0 && (placeOf pa).stored

/-- Reads and classifies the tile: it waits while a whole-tile write is open (R222). A fenced place answers FENCED. -/
def State.tchk (s : State) (a : AppCore) (rd : BitVec 5) (pa : Nat) : State :=
  if !s.readGoes a.p (pa / 4096) || s.mem.wholeOpen (pa / 4096) then s
  else match s.engineTile pa 0 fmtUntyped with
    | (s, .ok t) => s.setX a rd (tchkValue (classifyTile t) t.tcr.gen)
    | (s, .error e) => s.setX a rd (setField (setField 0 0 8 e.1.toNat) 8 7 127)

/-- KT.TCHK. -/
def execKtTchk (a : AppCore) (priv : Priv) (rd : BitVec 5) (rs1 : Word) (s : State) : Answer :=
  .next (s.inMonitor a priv fun s => if tileAt rs1.toNat then s.tchk a rd rs1.toNat else s.raise a .loadFault)

/-! ## KT.SGRD, KT.SGFEN -/

/-- VALID of a schedule-group slot (Table 5.7). -/
def State.groupValid (s : State) (g : Nat) : Bool := s.rbit (rSgCfg g) 63

/-- KT.SGRD. -/
def execKtSgrd (a : AppCore) (priv : Priv) (rd : BitVec 5) (rs1 : Word) (s : State) : Answer :=
  .next (s.inMonitor a priv fun s =>
    let g := fieldN rs1 0 6
    s.setX a rd (if s.groupValid g then s.reg (rSgStat g) else 0))

/-- KT.SGFEN. -/
def execKtSgfen (a : AppCore) (priv : Priv) (rs1 : Word) (s : State) : Answer :=
  .next (s.inMonitor a priv fun s =>
    let g := fieldN rs1 0 6
    (if s.groupValid g then s.fenceGroup g stFenced else s).noX a)

end Sys2Proof.Machine
end

