-- ==== Sys2Proof/Machine/SlotRows.lean ====
section
/-! DEFINITION. The rows of the slot operations (Tables 4.6, 4.11, 4.14, 4.16, 4.18): each runs as a bundle that holds it
alone (`State.runSlot`). -/

namespace Sys2Proof.Machine

/-- TMMA. -/
def execTmma (c : CoreAddr) (f : FTM) (s : State) : Answer := .next (s.runSlot c slotT (.tmma f))

/-- TFMA. -/
def execTfma (c : CoreAddr) (f : FTF) (s : State) : Answer := .next (s.runSlot c slotT (.tfma f))

/-- TRD. -/
def execTrd (c : CoreAddr) (f : FTR) (s : State) : Answer := .next (s.runSlot c slotT (.trd f))

/-- KIN. -/
def execKin (c : CoreAddr) (f : FTK) (s : State) : Answer := .next (s.runSlot c slotT (.kin f))

/-- VFMA. -/
def execVfma (c : CoreAddr) (f : FVR) (s : State) : Answer := .next (s.runSlot c slotV (.vfma f))

/-- VADD. -/
def execVadd (c : CoreAddr) (f : FVR) (s : State) : Answer := .next (s.runSlot c slotV (.vadd f))

/-- VSUB. -/
def execVsub (c : CoreAddr) (f : FVR) (s : State) : Answer := .next (s.runSlot c slotV (.vsub f))

/-- VMUL. -/
def execVmul (c : CoreAddr) (f : FVR) (s : State) : Answer := .next (s.runSlot c slotV (.vmul f))

/-- VMIN. -/
def execVmin (c : CoreAddr) (f : FVR) (s : State) : Answer := .next (s.runSlot c slotV (.vmin f))

/-- VMAX. -/
def execVmax (c : CoreAddr) (f : FVR) (s : State) : Answer := .next (s.runSlot c slotV (.vmax f))

/-- VCMP. -/
def execVcmp (c : CoreAddr) (f : FVR) (s : State) : Answer := .next (s.runSlot c slotV (.vcmp f))

/-- VIADD. -/
def execViadd (c : CoreAddr) (f : FVR) (s : State) : Answer := .next (s.runSlot c slotV (.viadd f))

/-- VISUB. -/
def execVisub (c : CoreAddr) (f : FVR) (s : State) : Answer := .next (s.runSlot c slotV (.visub f))

/-- VAND. -/
def execVand (c : CoreAddr) (f : FVR) (s : State) : Answer := .next (s.runSlot c slotV (.vand f))

/-- VOR. -/
def execVor (c : CoreAddr) (f : FVR) (s : State) : Answer := .next (s.runSlot c slotV (.vor f))

/-- VXOR. -/
def execVxor (c : CoreAddr) (f : FVR) (s : State) : Answer := .next (s.runSlot c slotV (.vxor f))

/-- VSHL. -/
def execVshl (c : CoreAddr) (f : FVR) (s : State) : Answer := .next (s.runSlot c slotV (.vshl f))

/-- VSHR. -/
def execVshr (c : CoreAddr) (f : FVR) (s : State) : Answer := .next (s.runSlot c slotV (.vshr f))

/-- VSRA. -/
def execVsra (c : CoreAddr) (f : FVR) (s : State) : Answer := .next (s.runSlot c slotV (.vsra f))

/-- VKADDW. -/
def execVkaddw (c : CoreAddr) (f : FVR) (s : State) : Answer := .next (s.runSlot c slotV (.vkaddw f))

/-- VKNAR. -/
def execVknar (c : CoreAddr) (f : FVR) (s : State) : Answer := .next (s.runSlot c slotV (.vknar f))

/-- VSEL. -/
def execVsel (c : CoreAddr) (f : FVR) (s : State) : Answer := .next (s.runSlot c slotV (.vsel f))

/-- VBCST. -/
def execVbcst (c : CoreAddr) (f : FVR) (s : State) : Answer := .next (s.runSlot c slotV (.vbcst f))

/-- VEXT. -/
def execVext (c : CoreAddr) (f : FVR) (s : State) : Answer := .next (s.runSlot c slotV (.vext f))

/-- VPERM. -/
def execVperm (c : CoreAddr) (f : FVR) (s : State) : Answer := .next (s.runSlot c slotV (.vperm f))

/-- VCVT_TO. -/
def execVcvtTo (c : CoreAddr) (f : FVX) (s : State) : Answer := .next (s.runSlot c slotV (.vcvtTo f))

/-- VCVT_FROM. -/
def execVcvtFrom (c : CoreAddr) (f : FVX) (s : State) : Answer := .next (s.runSlot c slotV (.vcvtFrom f))

/-- VSCAN. -/
def execVscan (c : CoreAddr) (f : FVN) (s : State) : Answer := .next (s.runSlot c slotV (.vscan f))

/-- VSMR. -/
def execVsmr (c : CoreAddr) (f : FVQ) (s : State) : Answer := .next (s.runSlot c slotV (.vsmr f))

/-- VSMW. -/
def execVsmw (c : CoreAddr) (f : FVQ) (s : State) : Answer := .next (s.runSlot c slotV (.vsmw f))

/-- LD_S. -/
def execLdS (c : CoreAddr) (f : FLM) (s : State) : Answer := .next (s.runSlot c (lSlot f.l1) (.ldS f))

/-- ST_S. -/
def execStS (c : CoreAddr) (f : FLM) (s : State) : Answer := .next (s.runSlot c (lSlot f.l1) (.stS f))

/-- LD_R. -/
def execLdR (c : CoreAddr) (f : FLM) (s : State) : Answer := .next (s.runSlot c (lSlot f.l1) (.ldR f))

/-- ST_R. -/
def execStR (c : CoreAddr) (f : FLM) (s : State) : Answer := .next (s.runSlot c (lSlot f.l1) (.stR f))

/-- LD_V. -/
def execLdV (c : CoreAddr) (f : FLM) (s : State) : Answer := .next (s.runSlot c (lSlot f.l1) (.ldV f))

/-- ST_V. -/
def execStV (c : CoreAddr) (f : FLM) (s : State) : Answer := .next (s.runSlot c (lSlot f.l1) (.stV f))

/-- LD_T. -/
def execLdT (c : CoreAddr) (f : FLM) (s : State) : Answer := .next (s.runSlot c (lSlot f.l1) (.ldT f))

/-- ST_T. -/
def execStT (c : CoreAddr) (f : FLM) (s : State) : Answer := .next (s.runSlot c (lSlot f.l1) (.stT f))

/-- ADD. -/
def execAdd (c : CoreAddr) (f : FLR) (s : State) : Answer := .next (s.runSlot c (lSlot f.l1) (.add f))

/-- SUB. -/
def execSub (c : CoreAddr) (f : FLR) (s : State) : Answer := .next (s.runSlot c (lSlot f.l1) (.sub f))

/-- AND. -/
def execAnd (c : CoreAddr) (f : FLR) (s : State) : Answer := .next (s.runSlot c (lSlot f.l1) (.and f))

/-- OR. -/
def execOr (c : CoreAddr) (f : FLR) (s : State) : Answer := .next (s.runSlot c (lSlot f.l1) (.or f))

/-- XOR. -/
def execXor (c : CoreAddr) (f : FLR) (s : State) : Answer := .next (s.runSlot c (lSlot f.l1) (.xor f))

/-- SHL. -/
def execShl (c : CoreAddr) (f : FLR) (s : State) : Answer := .next (s.runSlot c (lSlot f.l1) (.shl f))

/-- SHR. -/
def execShr (c : CoreAddr) (f : FLR) (s : State) : Answer := .next (s.runSlot c (lSlot f.l1) (.shr f))

/-- SRA. -/
def execSra (c : CoreAddr) (f : FLR) (s : State) : Answer := .next (s.runSlot c (lSlot f.l1) (.sra f))

/-- MUL. -/
def execMul (c : CoreAddr) (f : FLR) (s : State) : Answer := .next (s.runSlot c (lSlot f.l1) (.mul f))

/-- ADDI. -/
def execAddi (c : CoreAddr) (f : FLI) (s : State) : Answer := .next (s.runSlot c (lSlot f.l1) (.addi f))

/-- ANDI. -/
def execAndi (c : CoreAddr) (f : FLI) (s : State) : Answer := .next (s.runSlot c (lSlot f.l1) (.andi f))

/-- SHLI. -/
def execShli (c : CoreAddr) (f : FLI) (s : State) : Answer := .next (s.runSlot c (lSlot f.l1) (.shli f))

/-- SHRI. -/
def execShri (c : CoreAddr) (f : FLI) (s : State) : Answer := .next (s.runSlot c (lSlot f.l1) (.shri f))

/-- SCMP. -/
def execScmp (c : CoreAddr) (f : FLC) (s : State) : Answer := .next (s.runSlot c (lSlot f.l1) (.scmp f))

/-- MOVI. -/
def execMovi (c : CoreAddr) (f : FLV) (s : State) : Answer := .next (s.runSlot c (lSlot f.l1) (.movi f))

/-- MOV_PUT. -/
def execMovPut (c : CoreAddr) (f : FMP) (s : State) : Answer := .next (s.runSlot c slotM (.movPut f))

/-- MOV_FETCH. -/
def execMovFetch (c : CoreAddr) (f : FMP) (s : State) : Answer := .next (s.runSlot c slotM (.movFetch f))

/-- MOV_X. -/
def execMovX (c : CoreAddr) (f : FMP) (s : State) : Answer := .next (s.runSlot c slotM (.movX f))

/-- SEND. -/
def execSend (c : CoreAddr) (f : FMF) (s : State) : Answer := .next (s.runSlot c slotM (.send f))

/-- GET. -/
def execGet (c : CoreAddr) (f : FMF) (s : State) : Answer := .next (s.runSlot c slotM (.get f))

/-- MSEND. -/
def execMsend (c : CoreAddr) (f : FMC) (s : State) : Answer := .next (s.runSlot c slotM (.msend f))

/-- WAIT. -/
def execWait (c : CoreAddr) (f : FCW) (s : State) : Answer := .next (s.runSlot c slotC (.wait f))

/-- SIGNAL. -/
def execSignal (c : CoreAddr) (f : FCW) (s : State) : Answer := .next (s.runSlot c slotC (.signal f))

/-- BR. -/
def execBr (c : CoreAddr) (f : FCB) (s : State) : Answer := .next (s.runSlot c slotC (.br f))

/-- BDEC. -/
def execBdec (c : CoreAddr) (f : FCB) (s : State) : Answer := .next (s.runSlot c slotC (.bdec f))

/-- SPAN_BAR. -/
def execSpanBar (c : CoreAddr) (f : FCB) (s : State) : Answer := .next (s.runSlot c slotC (.spanBar f))

/-- KCLR. -/
def execKclr (c : CoreAddr) (f : FCK) (s : State) : Answer := .next (s.runSlot c slotC (.kclr f))

/-- RDFTC. -/
def execRdftc (c : CoreAddr) (f : FCS) (s : State) : Answer := .next (s.runSlot c slotC (.rdftc f))

/-- RDQ. -/
def execRdq (c : CoreAddr) (f : FCS) (s : State) : Answer := .next (s.runSlot c slotC (.rdq f))

/-- LDVOL. -/
def execLdvol (c : CoreAddr) (f : FCA) (s : State) : Answer := .next (s.runSlot c slotC (.ldvol f))

/-- LDACQ. -/
def execLdacq (c : CoreAddr) (f : FCA) (s : State) : Answer := .next (s.runSlot c slotC (.ldacq f))

/-- STREL. -/
def execStrel (c : CoreAddr) (f : FCA) (s : State) : Answer := .next (s.runSlot c slotC (.strel f))

end Sys2Proof.Machine
end

