-- ==== Sys2Proof/Machine/Dispatch.lean ====
section
/-! DEFINITION. Which meaning each command has: one arm per constructor of Instr. -/

namespace Sys2Proof.Machine

def exec (i : Instr) (s : State) : Host.Outcome State Fault Refusal :=
  match i with
  | .regWrite src addr size v => Sys2Proof.Machine.execRegWrite src addr size v s
  | .bundleIssue c => Sys2Proof.Machine.execBundleIssue c s
  | .tmma c f => Sys2Proof.Machine.execTmma c f s
  | .tfma c f => Sys2Proof.Machine.execTfma c f s
  | .trd c f => Sys2Proof.Machine.execTrd c f s
  | .kin c f => Sys2Proof.Machine.execKin c f s
  | .tOpComplete c pipe => Sys2Proof.Machine.execTOpComplete c pipe s
  | .readoutComplete c pipe => Sys2Proof.Machine.execReadoutComplete c pipe s
  | .vfma c f => Sys2Proof.Machine.execVfma c f s
  | .vadd c f => Sys2Proof.Machine.execVadd c f s
  | .vsub c f => Sys2Proof.Machine.execVsub c f s
  | .vmul c f => Sys2Proof.Machine.execVmul c f s
  | .vmin c f => Sys2Proof.Machine.execVmin c f s
  | .vmax c f => Sys2Proof.Machine.execVmax c f s
  | .vcmp c f => Sys2Proof.Machine.execVcmp c f s
  | .viadd c f => Sys2Proof.Machine.execViadd c f s
  | .visub c f => Sys2Proof.Machine.execVisub c f s
  | .vand c f => Sys2Proof.Machine.execVand c f s
  | .vor c f => Sys2Proof.Machine.execVor c f s
  | .vxor c f => Sys2Proof.Machine.execVxor c f s
  | .vshl c f => Sys2Proof.Machine.execVshl c f s
  | .vshr c f => Sys2Proof.Machine.execVshr c f s
  | .vsra c f => Sys2Proof.Machine.execVsra c f s
  | .vkaddw c f => Sys2Proof.Machine.execVkaddw c f s
  | .vknar c f => Sys2Proof.Machine.execVknar c f s
  | .vsel c f => Sys2Proof.Machine.execVsel c f s
  | .vbcst c f => Sys2Proof.Machine.execVbcst c f s
  | .vext c f => Sys2Proof.Machine.execVext c f s
  | .vperm c f => Sys2Proof.Machine.execVperm c f s
  | .vcvtTo c f => Sys2Proof.Machine.execVcvtTo c f s
  | .vcvtFrom c f => Sys2Proof.Machine.execVcvtFrom c f s
  | .vscan c f => Sys2Proof.Machine.execVscan c f s
  | .vsmr c f => Sys2Proof.Machine.execVsmr c f s
  | .vsmw c f => Sys2Proof.Machine.execVsmw c f s
  | .ldS c f => Sys2Proof.Machine.execLdS c f s
  | .stS c f => Sys2Proof.Machine.execStS c f s
  | .ldR c f => Sys2Proof.Machine.execLdR c f s
  | .stR c f => Sys2Proof.Machine.execStR c f s
  | .ldV c f => Sys2Proof.Machine.execLdV c f s
  | .stV c f => Sys2Proof.Machine.execStV c f s
  | .ldT c f => Sys2Proof.Machine.execLdT c f s
  | .stT c f => Sys2Proof.Machine.execStT c f s
  | .add c f => Sys2Proof.Machine.execAdd c f s
  | .sub c f => Sys2Proof.Machine.execSub c f s
  | .and c f => Sys2Proof.Machine.execAnd c f s
  | .or c f => Sys2Proof.Machine.execOr c f s
  | .xor c f => Sys2Proof.Machine.execXor c f s
  | .shl c f => Sys2Proof.Machine.execShl c f s
  | .shr c f => Sys2Proof.Machine.execShr c f s
  | .sra c f => Sys2Proof.Machine.execSra c f s
  | .mul c f => Sys2Proof.Machine.execMul c f s
  | .addi c f => Sys2Proof.Machine.execAddi c f s
  | .andi c f => Sys2Proof.Machine.execAndi c f s
  | .shli c f => Sys2Proof.Machine.execShli c f s
  | .shri c f => Sys2Proof.Machine.execShri c f s
  | .scmp c f => Sys2Proof.Machine.execScmp c f s
  | .movi c f => Sys2Proof.Machine.execMovi c f s
  | .movPut c f => Sys2Proof.Machine.execMovPut c f s
  | .movFetch c f => Sys2Proof.Machine.execMovFetch c f s
  | .movX c f => Sys2Proof.Machine.execMovX c f s
  | .send c f => Sys2Proof.Machine.execSend c f s
  | .get c f => Sys2Proof.Machine.execGet c f s
  | .msend c f => Sys2Proof.Machine.execMsend c f s
  | .moverComplete c id => Sys2Proof.Machine.execMoverComplete c id s
  | .coreFaultEntry c => Sys2Proof.Machine.execCoreFaultEntry c s
  | .wait c f => Sys2Proof.Machine.execWait c f s
  | .signal c f => Sys2Proof.Machine.execSignal c f s
  | .br c f => Sys2Proof.Machine.execBr c f s
  | .bdec c f => Sys2Proof.Machine.execBdec c f s
  | .spanBar c f => Sys2Proof.Machine.execSpanBar c f s
  | .kclr c f => Sys2Proof.Machine.execKclr c f s
  | .rdftc c f => Sys2Proof.Machine.execRdftc c f s
  | .rdq c f => Sys2Proof.Machine.execRdq c f s
  | .ldvol c f => Sys2Proof.Machine.execLdvol c f s
  | .ldacq c f => Sys2Proof.Machine.execLdacq c f s
  | .strel c f => Sys2Proof.Machine.execStrel c f s
  | .strelVisible c id => Sys2Proof.Machine.execStrelVisible c id s
  | .loadReturn c => Sys2Proof.Machine.execLoadReturn c s
  | .beatLimitInterval c => Sys2Proof.Machine.execBeatLimitInterval c s
  | .floorMeasure c => Sys2Proof.Machine.execFloorMeasure c s
  | .loadFillStart c => Sys2Proof.Machine.execLoadFillStart c s
  | .barrierArrival g a => Sys2Proof.Machine.execBarrierArrival g a s
  | .barrierRelease c => Sys2Proof.Machine.execBarrierRelease c s
  | .coreWaitLimit c => Sys2Proof.Machine.execCoreWaitLimit c s
  | .packageWaitLimit g => Sys2Proof.Machine.execPackageWaitLimit g s
  | .spareReplay c => Sys2Proof.Machine.execSpareReplay c s
  | .coreHwError c => Sys2Proof.Machine.execCoreHwError c s
  | .tileWriteOpen tile => Sys2Proof.Machine.execTileWriteOpen tile s
  | .tileWriteClose tile => Sys2Proof.Machine.execTileWriteClose tile s
  | .partialWrite tile => Sys2Proof.Machine.execPartialWrite tile s
  | .tileRead tile => Sys2Proof.Machine.execTileRead tile s
  | .tileReadHeader tile => Sys2Proof.Machine.execTileReadHeader tile s
  | .scrubTile p => Sys2Proof.Machine.execScrubTile p s
  | .ptInvalidate p v => Sys2Proof.Machine.execPtInvalidate p v s
  | .ptInvalidateDone p => Sys2Proof.Machine.execPtInvalidateDone p s
  | .linkBlock port block => Sys2Proof.Machine.execLinkBlock port block s
  | .packetForward port pkt => Sys2Proof.Machine.execPacketForward port pkt s
  | .sourceSend n => Sys2Proof.Machine.execSourceSend n s
  | .writeTile port pkt => Sys2Proof.Machine.execWriteTile port pkt s
  | .readTile port pkt => Sys2Proof.Machine.execReadTile port pkt s
  | .write8 port pkt => Sys2Proof.Machine.execWrite8 port pkt s
  | .read8 port pkt => Sys2Proof.Machine.execRead8 port pkt s
  | .notify port pkt => Sys2Proof.Machine.execNotify port pkt s
  | .openStream port pkt => Sys2Proof.Machine.execOpenStream port pkt s
  | .closeStream port pkt => Sys2Proof.Machine.execCloseStream port pkt s
  | .mgmt port pkt => Sys2Proof.Machine.execMgmt port pkt s
  | .ack port pkt => Sys2Proof.Machine.execAck port pkt s
  | .readResp port pkt => Sys2Proof.Machine.execReadResp port pkt s
  | .resp8 port pkt => Sys2Proof.Machine.execResp8 port pkt s
  | .nack port pkt => Sys2Proof.Machine.execNack port pkt s
  | .resync port last => Sys2Proof.Machine.execResync port last s
  | .servicePortRequest sport pkt => Sys2Proof.Machine.execServicePortRequest sport pkt s
  | .pennantEffect die n => Sys2Proof.Machine.execPennantEffect die n s
  | .streamIdleClose die n => Sys2Proof.Machine.execStreamIdleClose die n s
  | .arm src v => Sys2Proof.Machine.execArm src v s
  | .cutover => Sys2Proof.Machine.execCutover s
  | .eptRead die src v => Sys2Proof.Machine.execEptRead die src v s
  | .eptWrite die src v => Sys2Proof.Machine.execEptWrite die src v s
  | .eptLoad die src v => Sys2Proof.Machine.execEptLoad die src v s
  | .eptLoadDone => Sys2Proof.Machine.execEptLoadDone s
  | .tableWalk => Sys2Proof.Machine.execTableWalk s
  | .laneLockLoss port high => Sys2Proof.Machine.execLaneLockLoss port high s
  | .peerDark port => Sys2Proof.Machine.execPeerDark port s
  | .noAckTimeout port => Sys2Proof.Machine.execNoAckTimeout port s
  | .resyncResend port => Sys2Proof.Machine.execResyncResend port s
  | .resyncTimeout port => Sys2Proof.Machine.execResyncTimeout port s
  | .portTrain port peer peerPort lowOk highOk => Sys2Proof.Machine.execPortTrain port peer peerPort lowOk highOk s
  | .portRetrain port lowOk highOk => Sys2Proof.Machine.execPortRetrain port lowOk highOk s
  | .portDisable src port v => Sys2Proof.Machine.execPortDisable src port v s
  | .portDrainDone port => Sys2Proof.Machine.execPortDrainDone port s
  | .isolateN asserted => Sys2Proof.Machine.execIsolateN asserted s
  | .lsmInsert m identOk serial hours rated power => Sys2Proof.Machine.execLsmInsert m identOk serial hours rated power s
  | .lsmRemove m => Sys2Proof.Machine.execLsmRemove m s
  | .lsmOff src m v acked => Sys2Proof.Machine.execLsmOff src m v acked s
  | .lsmWriteBack src m v acked => Sys2Proof.Machine.execLsmWriteBack src m v acked s
  | .lsmHours m acked => Sys2Proof.Machine.execLsmHours m acked s
  | .timeMarker port peerFtc offset peerLock peerHoldover peerHops => Sys2Proof.Machine.execTimeMarker port peerFtc offset peerLock peerHoldover peerHops s
  | .ftcSteer => Sys2Proof.Machine.execFtcSteer s
  | .holdoverExpiry => Sys2Proof.Machine.execHoldoverExpiry s
  | .ftcSet src v => Sys2Proof.Machine.execFtcSet src v s
  | .allReduce ring desc => Sys2Proof.Machine.execAllReduce ring desc s
  | .reduceScatter ring desc => Sys2Proof.Machine.execReduceScatter ring desc s
  | .allGather ring desc => Sys2Proof.Machine.execAllGather ring desc s
  | .dispatch ring desc => Sys2Proof.Machine.execDispatch ring desc s
  | .reservation collId => Sys2Proof.Machine.execReservation collId s
  | .collHeld port pkt => Sys2Proof.Machine.execCollHeld port pkt s
  | .collGo port pkt => Sys2Proof.Machine.execCollGo port pkt s
  | .collYield port pkt => Sys2Proof.Machine.execCollYield port pkt s
  | .yieldOk port pkt => Sys2Proof.Machine.execYieldOk port pkt s
  | .goSent port pkt => Sys2Proof.Machine.execGoSent port pkt s
  | .collData port pkt => Sys2Proof.Machine.execCollData port pkt s
  | .collCredit port pkt => Sys2Proof.Machine.execCollCredit port pkt s
  | .collFin port pkt => Sys2Proof.Machine.execCollFin port pkt s
  | .collEnd port pkt => Sys2Proof.Machine.execCollEnd port pkt s
  | .rwaitExpiry collId => Sys2Proof.Machine.execRwaitExpiry collId s
  | .dlimitExpiry die collId => Sys2Proof.Machine.execDlimitExpiry die collId s
  | .collRetry collId => Sys2Proof.Machine.execCollRetry collId s
  | .doorbell src ring tail => Sys2Proof.Machine.execDoorbell src ring tail s
  | .commandStart ring => Sys2Proof.Machine.execCommandStart ring s
  | .commandComplete ring idx => Sys2Proof.Machine.execCommandComplete ring idx s
  | .launch ring desc => Sys2Proof.Machine.execLaunch ring desc s
  | .moveCopy ring desc => Sys2Proof.Machine.execMoveCopy ring desc s
  | .movePut ring desc => Sys2Proof.Machine.execMovePut ring desc s
  | .moveGet ring desc => Sys2Proof.Machine.execMoveGet ring desc s
  | .rdmaWrite ring desc => Sys2Proof.Machine.execRdmaWrite ring desc s
  | .rdmaRead ring desc => Sys2Proof.Machine.execRdmaRead ring desc s
  | .fenceOrder ring desc => Sys2Proof.Machine.execFenceOrder ring desc s
  | .fenceCommand ring desc => Sys2Proof.Machine.execFenceCommand ring desc s
  | .fenceDomain ring desc => Sys2Proof.Machine.execFenceDomain ring desc s
  | .counters ring desc => Sys2Proof.Machine.execCounters ring desc s
  | .maint ring desc => Sys2Proof.Machine.execMaint ring desc s
  | .mapPages port ctx req => Sys2Proof.Machine.execMapPages port ctx req s
  | .unmapPages port ctx req => Sys2Proof.Machine.execUnmapPages port ctx req s
  | .epwSet port ctx req => Sys2Proof.Machine.execEpwSet port ctx req s
  | .epwClr port ctx req => Sys2Proof.Machine.execEpwClr port ctx req s
  | .query port ctx req => Sys2Proof.Machine.execQuery port ctx req s
  | .epwValidate src n v => Sys2Proof.Machine.execEpwValidate src n v s
  | .epwIdle n => Sys2Proof.Machine.execEpwIdle n s
  | .ringEnable src ring v => Sys2Proof.Machine.execRingEnable src ring v s
  | .contextDisable src ctx v => Sys2Proof.Machine.execContextDisable src ctx v s
  | .bar2Access port fn write off len data => Sys2Proof.Machine.execBar2Access port fn write off len data s
  | .roceRequest die write rkey addr tiles data => Sys2Proof.Machine.execRoceRequest die write rkey addr tiles data s
  | .pcieLinkDown port => Sys2Proof.Machine.execPcieLinkDown port s
  | .perst port => Sys2Proof.Machine.execPerst port s
  | .vfFlr port ctx => Sys2Proof.Machine.execVfFlr port ctx s
  | .pfFlr port => Sys2Proof.Machine.execPfFlr port s
  | .ktDbell a priv rd rs1 rs2 => Sys2Proof.Machine.execKtDbell a priv rd rs1 rs2 s
  | .ktFtc a priv rd => Sys2Proof.Machine.execKtFtc a priv rd s
  | .ktTchk a priv rd rs1 => Sys2Proof.Machine.execKtTchk a priv rd rs1 s
  | .ktSrel a priv scope rs1 rs2 => Sys2Proof.Machine.execKtSrel a priv scope rs1 rs2 s
  | .ktLacq a priv scope rd rs1 => Sys2Proof.Machine.execKtLacq a priv scope rd rs1 s
  | .ktSgrd a priv rd rs1 => Sys2Proof.Machine.execKtSgrd a priv rd rs1 s
  | .ktSgfen a priv rs1 => Sys2Proof.Machine.execKtSgfen a priv rs1 s
  | .governorStep inp => Sys2Proof.Machine.execGovernorStep inp s
  | .throttleRelease inp => Sys2Proof.Machine.execThrottleRelease inp s
  | .avsRead volts amps => Sys2Proof.Machine.execAvsRead volts amps s
  | .avsFault rail => Sys2Proof.Machine.execAvsFault rail s
  | .commit src v => Sys2Proof.Machine.execCommit src v s
  | .emerg src v => Sys2Proof.Machine.execEmerg src v s
  | .beat src v => Sys2Proof.Machine.execBeat src v s
  | .heartbeatLost => Sys2Proof.Machine.execHeartbeatLost s
  | .coolantWrite src v => Sys2Proof.Machine.execCoolantWrite src v s
  | .coolantAgeExpiry => Sys2Proof.Machine.execCoolantAgeExpiry s
  | .leakSample ohms => Sys2Proof.Machine.execLeakSample ohms s
  | .sensorSuspect n answered reading negative model => Sys2Proof.Machine.execSensorSuspect n answered reading negative model s
  | .hbmTempRead p temps => Sys2Proof.Machine.execHbmTempRead p temps s
  | .thermalShutdown model sensor temp unc => Sys2Proof.Machine.execThermalShutdown model sensor temp unc s
  | .railLoss rail lost => Sys2Proof.Machine.execRailLoss rail lost s
  | .vauxApply => Sys2Proof.Machine.execVauxApply s
  | .pkgResetN asserted => Sys2Proof.Machine.execPkgResetN asserted s
  | .porExit refPresent fwActiveOk fwOtherOk => Sys2Proof.Machine.execPorExit refPresent fwActiveOk fwOtherOk s
  | .mgmtPhaseEnd aOk bOk => Sys2Proof.Machine.execMgmtPhaseEnd aOk bOk s
  | .clocksPhaseEnd linksOk dieOk => Sys2Proof.Machine.execClocksPhaseEnd linksOk dieOk s
  | .memoryPhaseEnd hbmFail sramFail => Sys2Proof.Machine.execMemoryPhaseEnd hbmFail sramFail s
  | .linksPhaseEnd => Sys2Proof.Machine.execLinksPhaseEnd s
  | .knownAnswerRun p c fails => Sys2Proof.Machine.execKnownAnswerRun p c fails s
  | .ready => Sys2Proof.Machine.execReady s
  | .storeConfig src v => Sys2Proof.Machine.execStoreConfig src v s
  | .installToken src v => Sys2Proof.Machine.execInstallToken src v s
  | .rstCore p src v => Sys2Proof.Machine.execRstCore p src v s
  | .rstCluster p src v => Sys2Proof.Machine.execRstCluster p src v s
  | .rstPartition p src v => Sys2Proof.Machine.execRstPartition p src v s
  | .holdRelease p src v => Sys2Proof.Machine.execHoldRelease p src v s
  | .pkgReset src v => Sys2Proof.Machine.execPkgReset src v s
  | .drainEnd d => Sys2Proof.Machine.execDrainEnd d s
  | .drainTimeout d => Sys2Proof.Machine.execDrainTimeout d s
  | .resetAck d => Sys2Proof.Machine.execResetAck d s
  | .restoreEnd d => Sys2Proof.Machine.execRestoreEnd d s
  | .resetBudgetExpiry d => Sys2Proof.Machine.execResetBudgetExpiry d s
  | .dumpUnitRead payload => Sys2Proof.Machine.execDumpUnitRead payload s
  | .dumpUnitTimeout => Sys2Proof.Machine.execDumpUnitTimeout s
  | .cycleReport p queues => Sys2Proof.Machine.execCycleReport p queues s
  | .noticeRetry seq => Sys2Proof.Machine.execNoticeRetry seq s
  | .peerFail src v => Sys2Proof.Machine.execPeerFail src v s
  | .pairMessage a b => Sys2Proof.Machine.execPairMessage a b s
  | .pairCopyTimeout fromB m => Sys2Proof.Machine.execPairCopyTimeout fromB m s
  | .reloadDone a b => Sys2Proof.Machine.execReloadDone a b s
  | .reloadTimeout => Sys2Proof.Machine.execReloadTimeout s
  | .readmit src v => Sys2Proof.Machine.execReadmit src v s
  | .pairSwap src v => Sys2Proof.Machine.execPairSwap src v s
  | .standbySelftest pass cov tcov => Sys2Proof.Machine.execStandbySelftest pass cov tcov s
  | .sliceStart => Sys2Proof.Machine.execSliceStart s
  | .sliceEnd n r => Sys2Proof.Machine.execSliceEnd n r s
  | .sliceCut n r => Sys2Proof.Machine.execSliceCut n r s
  | .sliceExpire n => Sys2Proof.Machine.execSliceExpire n s
  | .periodicSliceQueue => Sys2Proof.Machine.execPeriodicSliceQueue s
  | .latch src v => Sys2Proof.Machine.execLatch src v s
  | .ptcTick => Sys2Proof.Machine.execPtcTick s
  | .inventoryUpdate => Sys2Proof.Machine.execInventoryUpdate s
  | .tracePacket a priv bytes lost => Sys2Proof.Machine.execTracePacket a priv bytes lost s
  | .updateStart src v => Sys2Proof.Machine.execUpdateStart src v s
  | .stagingDone => Sys2Proof.Machine.execStagingDone s
  | .actAt => Sys2Proof.Machine.execActAt s
  | .apply src v => Sys2Proof.Machine.execApply src v s
  | .abort src v => Sys2Proof.Machine.execAbort src v s
  | .rollback src v => Sys2Proof.Machine.execRollback src v s
  | .partCheck part p pass => Sys2Proof.Machine.execPartCheck part p pass s
  | .checkSExpiry => Sys2Proof.Machine.execCheckSExpiry s
  | .rollbackDone => Sys2Proof.Machine.execRollbackDone s
  | .dieToDieLinkDown p south channel => Sys2Proof.Machine.execDieToDieLinkDown p south channel s
  | .lsmDegraded m power => Sys2Proof.Machine.execLsmDegraded m power s
  | .engineStopsAnswering d => Sys2Proof.Machine.execEngineStopsAnswering d s
  | .pcieLinkUp port rate width => Sys2Proof.Machine.execPcieLinkUp port rate width s

end Sys2Proof.Machine
end

