-- ==== Sys2Proof/Safety.lean ====
section
/-! DEFINITION. What counts as a safe run of the package, and the terms in which the statements speak: canonical memories,
what a command may change, when an operation of a slot may issue. -/

namespace Sys2Proof.Machine

/-- The memories are in canonical form. -/
def Mem.wf (m : Mem) : Bool :=
  Memory.wf m.pkg && Memory.wf m.loc && mwf restRec m.tcr && mwf (fun _ => zeroRec) m.locTcr

/-! ## What may change -/

/-- Nothing but control-space registers of the list changes. -/
def OnlyRegs (s t : State) (l : List Nat) : Prop :=
  t = { s with regs := t.regs } ∧ ∀ a, a ∉ l → t.reg a = s.reg a

/-- Registers outside the list keep their value. -/
def RegsKept (s t : State) (l : List Nat) : Prop := ∀ a, a ∉ l → t.reg a = s.reg a

/-- Every logical core but `c` is unchanged. -/
def CoresKept (s t : State) (c : CoreAddr) : Prop := ∀ d, d ≠ c → t.core d = s.core d

/-- Nothing but the core `c` changes. -/
def OnlyCore (s t : State) (c : CoreAddr) : Prop := t = { s with cores := t.cores } ∧ CoresKept s t c

/-- Every register of every file of the core is unchanged, and so are PC and the accumulators' and scale registers. -/
def FilesKept (k m : Core) : Prop :=
  m.s = k.s ∧ m.v = k.v ∧ m.t = k.t ∧ m.k = k.k ∧ m.p = k.p ∧ m.q = k.q ∧ m.sma = k.sma ∧ m.smb = k.smb

/-- A slot operation of the core `c` changes nothing but its scalar registers in `l`. -/
def OnlyS (s t : State) (c : CoreAddr) (l : List Nat) : Prop :=
  OnlyCore s t c ∧ t.core c = { s.core c with s := (t.core c).s, waitBeats := 0, fill := false } ∧
    ∀ n, n ∉ l → (t.core c).getS n = (s.core c).getS n

/-- Nothing but its vector registers in `l`. -/
def OnlyV (s t : State) (c : CoreAddr) (l : List Nat) : Prop :=
  OnlyCore s t c ∧ t.core c = { s.core c with v := (t.core c).v, waitBeats := 0, fill := false } ∧
    ∀ n, n ∉ l → (t.core c).getV n = (s.core c).getV n

/-- Nothing but its vector registers in `l` and its sticky flags. -/
def OnlyVFlags (s t : State) (c : CoreAddr) (l : List Nat) : Prop :=
  OnlyCore s t c ∧
    t.core c = { s.core c with v := (t.core c).v, flags := (t.core c).flags, waitBeats := 0, fill := false } ∧
    ∀ n, n ∉ l → (t.core c).getV n = (s.core c).getV n

/-- Nothing but its predicate register `n`. -/
def OnlyP (s t : State) (c : CoreAddr) (n : Nat) : Prop :=
  OnlyCore s t c ∧ t.core c = { s.core c with p := (t.core c).p, waitBeats := 0, fill := false } ∧
    ∀ m, m ≠ n → (t.core c).getP m = (s.core c).getP m

/-- The operation changes no register, no memory and no other core. -/
def NoEffect (s t : State) (c : CoreAddr) : Prop := t = s.issued c

/-! ## When a slot operation may issue -/

/-- The operation is legal and its core may issue it as a bundle of its own: the core runs, no operation in flight touches
a register or a local row of it, the queue of its unit has a place and the range tracker has entries (R94, R96, R103). -/
def SlotFree (s : State) (c : CoreAddr) (op : SlotOp) : Prop :=
  (s.core c).mayIssue = true ∧ opLegal op = true ∧
    (∀ x ∈ (s.core c).flights, x.clashes (opRegs op).1 (opRegs op).2 ((s.core c).opRanges op) = false) ∧
    (s.core c).queued op < 8 ∧ (s.core c).entries + ((s.core c).opRanges op).length ≤ 64

/-- The command and the operation it issues. -/
def slotCommand : Instr → Option (CoreAddr × BitVec 3 × SlotOp)
  | .tmma c f => some (c, slotT, .tmma f) | .tfma c f => some (c, slotT, .tfma f)
  | .trd c f => some (c, slotT, .trd f) | .kin c f => some (c, slotT, .kin f)
  | .vfma c f => some (c, slotV, .vfma f) | .vadd c f => some (c, slotV, .vadd f)
  | .vsub c f => some (c, slotV, .vsub f) | .vmul c f => some (c, slotV, .vmul f)
  | .vmin c f => some (c, slotV, .vmin f) | .vmax c f => some (c, slotV, .vmax f)
  | .vcmp c f => some (c, slotV, .vcmp f) | .viadd c f => some (c, slotV, .viadd f)
  | .visub c f => some (c, slotV, .visub f) | .vand c f => some (c, slotV, .vand f)
  | .vor c f => some (c, slotV, .vor f) | .vxor c f => some (c, slotV, .vxor f)
  | .vshl c f => some (c, slotV, .vshl f) | .vshr c f => some (c, slotV, .vshr f)
  | .vsra c f => some (c, slotV, .vsra f) | .vkaddw c f => some (c, slotV, .vkaddw f)
  | .vknar c f => some (c, slotV, .vknar f) | .vsel c f => some (c, slotV, .vsel f)
  | .vbcst c f => some (c, slotV, .vbcst f) | .vext c f => some (c, slotV, .vext f)
  | .vperm c f => some (c, slotV, .vperm f) | .vcvtTo c f => some (c, slotV, .vcvtTo f)
  | .vcvtFrom c f => some (c, slotV, .vcvtFrom f) | .vscan c f => some (c, slotV, .vscan f)
  | .vsmr c f => some (c, slotV, .vsmr f) | .vsmw c f => some (c, slotV, .vsmw f)
  | .ldS c f => some (c, lSlot f.l1, .ldS f) | .stS c f => some (c, lSlot f.l1, .stS f)
  | .ldR c f => some (c, lSlot f.l1, .ldR f) | .stR c f => some (c, lSlot f.l1, .stR f)
  | .ldV c f => some (c, lSlot f.l1, .ldV f) | .stV c f => some (c, lSlot f.l1, .stV f)
  | .ldT c f => some (c, lSlot f.l1, .ldT f) | .stT c f => some (c, lSlot f.l1, .stT f)
  | .add c f => some (c, lSlot f.l1, .add f) | .sub c f => some (c, lSlot f.l1, .sub f)
  | .and c f => some (c, lSlot f.l1, .and f) | .or c f => some (c, lSlot f.l1, .or f)
  | .xor c f => some (c, lSlot f.l1, .xor f) | .shl c f => some (c, lSlot f.l1, .shl f)
  | .shr c f => some (c, lSlot f.l1, .shr f) | .sra c f => some (c, lSlot f.l1, .sra f)
  | .mul c f => some (c, lSlot f.l1, .mul f) | .addi c f => some (c, lSlot f.l1, .addi f)
  | .andi c f => some (c, lSlot f.l1, .andi f) | .shli c f => some (c, lSlot f.l1, .shli f)
  | .shri c f => some (c, lSlot f.l1, .shri f) | .scmp c f => some (c, lSlot f.l1, .scmp f)
  | .movi c f => some (c, lSlot f.l1, .movi f)
  | .movPut c f => some (c, slotM, .movPut f) | .movFetch c f => some (c, slotM, .movFetch f)
  | .movX c f => some (c, slotM, .movX f) | .send c f => some (c, slotM, .send f)
  | .get c f => some (c, slotM, .get f) | .msend c f => some (c, slotM, .msend f)
  | .wait c f => some (c, slotC, .wait f) | .signal c f => some (c, slotC, .signal f)
  | .br c f => some (c, slotC, .br f) | .bdec c f => some (c, slotC, .bdec f)
  | .spanBar c f => some (c, slotC, .spanBar f) | .kclr c f => some (c, slotC, .kclr f)
  | .rdftc c f => some (c, slotC, .rdftc f) | .rdq c f => some (c, slotC, .rdq f)
  | .ldvol c f => some (c, slotC, .ldvol f) | .ldacq c f => some (c, slotC, .ldacq f)
  | .strel c f => some (c, slotC, .strel f)
  | _ => none

/-! ## Results of the slots -/

/-- The integer operation: where the predicate enables it, element j of v[VD] takes `g` of elements j of v[VA] and v[VB];
other elements and everything else keep their value. -/
def VecIntOk (s : State) (c : CoreAddr) (f : FVR) (op : SlotOp) (i : Instr) (g : (w : Nat) → BitVec w → BitVec w → BitVec w) :
    Prop :=
  SlotFree s c op → ∃ t, exec i s = .next t ∧ OnlyV s t c [f.vd.toNat] ∧
    ∀ j, j < 4096 / intWidth f.ty →
      vElem ((t.core c).getV f.vd.toNat) (intWidth f.ty) j =
        if predOn ((s.core c).getP f.pred.toNat) (intWidth f.ty) j then
          (g (intWidth f.ty) (BitVec.ofNat (intWidth f.ty) (vElem ((s.core c).getV f.va.toNat) (intWidth f.ty) j))
            (BitVec.ofNat (intWidth f.ty) (vElem ((s.core c).getV f.vb.toNat) (intWidth f.ty) j))).toNat
        else vElem ((s.core c).getV f.vd.toNat) (intWidth f.ty) j

/-- The float operation: an enabled element takes the exact result `g` of the operand elements, rounded once; a result
that is not a number is some NaN. -/
def VecFloatOk (s : State) (c : CoreAddr) (f : FVR) (op : SlotOp) (i : Instr) (g : Rm → Val → Val → Val → Val) : Prop :=
  SlotFree s c op → ∃ t, exec i s = .next t ∧ OnlyV s t c [f.vd.toNat] ∧
    ∀ j, j < 4096 / (floatFmt f.ty).bits →
      let el := fun (k : Core) (n : Nat) => vElem (k.getV n) (floatFmt f.ty).bits j
      let x := g (floatRm f.rm) (decodeElem (floatFmt f.ty) (el (s.core c) f.va.toNat))
        (decodeElem (floatFmt f.ty) (el (s.core c) f.vb.toNat)) (decodeElem (floatFmt f.ty) (el (s.core c) f.vc.toNat))
      if predOn ((s.core c).getP f.pred.toNat) (floatFmt f.ty).bits j then
        (∀ code, packVal (floatFmt f.ty) (floatRm f.rm) x = some code →
          el (t.core c) f.vd.toNat = code % 2 ^ (floatFmt f.ty).bits) ∧
        (packVal (floatFmt f.ty) (floatRm f.rm) x = none →
          isNan (decodeElem (floatFmt f.ty) (el (t.core c) f.vd.toNat)) = true)
      else el (t.core c) f.vd.toNat = el (s.core c) f.vd.toNat

/-- VMIN or VMAX: `pick x y` says that the first operand is taken. -/
def VecPickOk (s : State) (c : CoreAddr) (f : FVR) (op : SlotOp) (i : Instr) (pick : Val → Val → Bool) : Prop :=
  SlotFree s c op → ∃ t, exec i s = .next t ∧ OnlyV s t c [f.vd.toNat] ∧
    ∀ j, j < 4096 / (floatFmt f.ty).bits →
      let el := fun (k : Core) (n : Nat) => vElem (k.getV n) (floatFmt f.ty).bits j
      let x := decodeElem (floatFmt f.ty) (el (s.core c) f.va.toNat)
      let y := decodeElem (floatFmt f.ty) (el (s.core c) f.vb.toNat)
      el (t.core c) f.vd.toNat =
        if predOn ((s.core c).getP f.pred.toNat) (floatFmt f.ty).bits j then
          if isNan x || isNan y then (if f.ty = 0 then 0x7FC00000 else 0x7FC0)
          else if pick x y then el (s.core c) f.va.toNat else el (s.core c) f.vb.toNat
        else el (s.core c) f.vd.toNat

/-- A vector operation that moves bits: an enabled element takes `v j`. -/
def VecMoveOk (s : State) (c : CoreAddr) (f : FVR) (op : SlotOp) (i : Instr) (v : Nat → Nat) : Prop :=
  SlotFree s c op → ∃ t, exec i s = .next t ∧ OnlyV s t c [f.vd.toNat] ∧
    ∀ j, j < 4096 / intWidth f.ty →
      vElem ((t.core c).getV f.vd.toNat) (intWidth f.ty) j =
        if predOn ((s.core c).getP f.pred.toNat) (intWidth f.ty) j then v j
        else vElem ((s.core c).getV f.vd.toNat) (intWidth f.ty) j

/-- The condition of VCMP on element j. -/
def vcmpAt (k : Core) (f : FVR) (j : Nat) : Bool :=
  if f.vc.getLsbD 3 then
    vcmpInt (f.vc.toNat % 8) (intWidth f.ty) (vElem (k.getV f.va.toNat) (intWidth f.ty) j)
      (vElem (k.getV f.vb.toNat) (intWidth f.ty) j)
  else
    vcmpFloat (floatFmt f.ty) (f.vc.toNat % 8) (vElem (k.getV f.va.toNat) (floatFmt f.ty).bits j)
      (vElem (k.getV f.vb.toNat) (floatFmt f.ty).bits j)

/-- The element width of VCMP. -/
def vcmpWidth (f : FVR) : Nat := if f.vc.getLsbD 3 then intWidth f.ty else (floatFmt f.ty).bits

/-- The scalar operation: s[rd] takes `v`, s0 stays zero; nothing happens where bit 0 of the predicate is 0. -/
def ScalarOk (s : State) (c : CoreAddr) (pred : BitVec 3) (rd : BitVec 5) (op : SlotOp) (i : Instr) (v : Word) : Prop :=
  SlotFree s c op → ∃ t, exec i s = .next t ∧ OnlyS s t c [rd.toNat] ∧
    (t.core c).getS rd.toNat =
      if rd = 0 then 0 else if (s.core c).enabled pred then v else (s.core c).getS rd.toNat

/-- What an FP32 element becomes in a format without block scales, under the tensor scale of the operation (R77, R149,
R546). -/
def cvtResult (k : Core) (f : FVX) (fm : EFmt) (i : Nat) : Nat × Bool :=
  match (if fm = .bf16 then some 0 else e8m0 (scaleByte (k.getS f.vs.toNat) 0).toNat) with
  | none => (invalidCode fm, false)
  | some x => cvtPlain fm (cvtRm f.rm) (k.cvtSr f (128 * f.part.toNat + i)) x
      (decodeElem .fp32 (vElem (k.getV f.va.toNat) 32 i))

/-- The scale code of block j of a conversion to an MX format, from all of its 32 values (R73, R552). -/
def cvtScale (k : Core) (f : FVX) (fm : EFmt) (j : Nat) : Nat :=
  mxScale fm ((List.range 32).map fun i => (decodeElem .fp32 (vElem (k.getV f.va.toNat) 32 (32 * j + i))).finite)

/-- What an FP32 element becomes in an MX format. -/
def cvtMxResult (k : Core) (f : FVX) (fm : EFmt) (i : Nat) : Nat × Bool :=
  outMx fm (cvtRm f.rm) (k.cvtSr f (128 * f.part.toNat + i)) (cvtScale k f fm (i / 32))
    (decodeElem .fp32 (vElem (k.getV f.va.toNat) 32 i)).finite

/-- What a narrow element becomes as FP32: exact, times its scale; an invalid one or a NaN scale gives the NaN of Table
2.8. -/
def cvtWide (k : Core) (f : FVX) (fm : EFmt) (mx : Bool) (i : Nat) : Nat × Bool :=
  let code := bitsAt (k.getV f.va.toNat) (narrowBit fm f.part.toNat i) fm.bits
  let u := if mx then vByte (k.getV f.vs.toNat) (4 * f.part.toNat + i / 32) else (scaleByte (k.getS f.vs.toNat) 0).toNat
  if fm = .bf16 then (code * 0x10000, false)
  else toFp32 (match (decodeElem fm code).finite, e8m0 u with
    | some d, some x => some (d.scale x)
    | _, _ => none)

/-- What a KS64 lane becomes: rounded once, with the sign of a zero cleared (R69, R72). -/
def cvtKs (k : Core) (f : FVX) (fm : EFmt) (i : Nat) : Nat × Bool :=
  let r := outPlain fm (cvtRm f.rm) (k.cvtSr f (64 * f.part.toNat + i))
    (ksValue (k.cvtAnchor f) (BitVec.ofNat 64 (vElem (k.getV f.va.toNat) 64 i)))
  (plusZero fm r.1, r.2)

/-- A sticky flag is set where `b`, and only there; every other flag keeps its value. -/
def FlagSet (k m : Core) (n : Nat) (b : Bool) : Prop :=
  ∀ i, i < 64 → bit m.flags i = (bit k.flags i || (i == n && b))

/-- The load or store finds its address aligned, within local memory and outside the code region (R88, R153). -/
def AddrOk (k : Core) (f : FLM) (size : Nat) : Prop := k.localCheck (k.lmAddr f size) size size = none

/-- The rows that a load reads pass the check of R226. -/
def RowsGood (s : State) (c : CoreAddr) (a size : Nat) : Prop :=
  classify (s.mem.localTileImg (s.physD c) (a / 4096)).data (s.mem.localTileImg (s.physD c) (a / 4096)).tcr
    ((List.range (max 1 (size / 64))).map fun i => a % 4096 / 64 + i) (size == 4096) = .good

/-- The operation is in flight as the last one of the core, and the core has no other change. -/
def PutInFlight (s t : State) (c : CoreAddr) (slot : BitVec 3) (q : BitVec 5) (kind : FlightKind) : Prop :=
  ∃ x : Flight, x.id = (s.core c).nextId ∧ x.slot = slot ∧ x.q = q ∧ x.bundle = (s.core c).pc ∧ x.failed = false ∧
    x.kind = kind ∧ t.core c = { s.core c with
      flights := (s.core c).flights ++ [x], nextId := (s.core c).nextId + 1, waitBeats := 0, fill := false }

/-- The token counter `q` is incremented by `n` (R98); past 65,535 it stays there and the core takes TOKEN_OVERFLOW (R102). -/
def Signalled (k m : Core) (q n : Nat) : Prop :=
  (∀ i, i ≠ q → m.getQ i = k.getQ i) ∧
    (if (k.getQ q).toNat + n < 65536 then (m.getQ q).toNat = (k.getQ q).toNat + n ∧ m.pend = k.pend
      else (m.getQ q).toNat = 65535 ∧ m.pend.isSome = true ∧ (bit k.faultReg 63 = false → fieldN m.faultReg 40 8 = 9))

/-- The operand tile passes the checks made when it arrives: a tile fetched from local memory carries the format and
classifies GOOD. -/
def SourceOk (x : TileSrc) (fmt : BitVec 8) : Prop := x.addr.isSome = true → x.img.tcr.fmt = fmt ∧ classifyTile x.img = .good

/-- An operation leaves flight, and the core's other operations stay in order. -/
def Landed (k m : Core) (id : Nat) : Prop := m.flights = k.flights.filter fun x => x.id != id

/-! ## Invariants -/

/-- Operations in flight, and operations at the points of coherence, have numbers below the next one, and no two have the same. -/
def State.numbered (s : State) : Prop :=
  (∀ c, (∀ x ∈ (s.core c).flights, x.id < (s.core c).nextId) ∧ ((s.core c).flights.map Flight.id).Nodup) ∧
    (∀ o ∈ s.mem.ops, o.id < s.mem.nextOp) ∧ (s.mem.ops.map PocOp.id).Nodup

/-- Every core's schedule-group slot is one of the 64. -/
def State.groupsOk (s : State) : Prop := ∀ c, (s.core c).group < 64

/-! ## Movers -/

/-- An operation of the M slot is in flight as the last one of the core, with `left` tiles to come. -/
def MoverInFlight (s t : State) (c : CoreAddr) (q : BitVec 5) (kind : MoverKind) (left : Nat) (sc : BitVec 3) : Prop :=
  ∃ x : Flight, x.id = (s.core c).nextId ∧ x.slot = slotM ∧ x.q = q ∧ x.bundle = (s.core c).pc ∧ x.failed = false ∧
    x.kind = .mover kind left sc ∧ (t.core c).flights = (s.core c).flights ++ [x] ∧
    (t.core c).nextId = (s.core c).nextId + 1

/-- The core's register files, PC and exception state are unchanged, and so is every other core. -/
def CoreQuiet (s t : State) (c : CoreAddr) : Prop :=
  CoresKept s t c ∧ FilesKept (s.core c) (t.core c) ∧ (t.core c).pc = (s.core c).pc ∧ (t.core c).st = (s.core c).st ∧
    (t.core c).flags = (s.core c).flags ∧ (t.core c).faultReg = (s.core c).faultReg ∧ (t.core c).pend = (s.core c).pend

/-- The stored contents of every memory are unchanged. -/
def MemKept (s t : State) : Prop :=
  t.mem.pkg = s.mem.pkg ∧ t.mem.loc = s.mem.loc ∧ t.mem.tcr = s.mem.tcr ∧ t.mem.locTcr = s.mem.locTcr

/-- Operations have arrived at points of coherence behind those that were there: their tiles and kinds. -/
def Arrived (s t : State) (l : List (Nat × PocKind)) : Prop :=
  ∃ n, t.mem.ops = s.mem.ops ++ n ∧ n.map (fun o => (o.tile, o.kind)) = l ∧ ∀ o ∈ n, o.opened = false

/-- Requests have been queued at the source router behind those that were there. -/
def Queued (s t : State) (l : List Packet) : Prop :=
  ∃ n, t.fab = { s.fab with src := s.fab.src ++ n } ∧ n.map SrcReq.pkt = l

/-- The places of a mover operation: outside the cores, and not fenced. -/
def PlacesOk (s : State) (l : List Nat) : Prop :=
  ∀ pa ∈ l, (placeOf pa).stored = true ∧ s.fencedPlace (placeOf pa) = false

/-- Nothing but the core `c` and the counter of rows of local memory changes. -/
def OnlyCoreCnt (s t : State) (c : CoreAddr) : Prop :=
  t = { s with cores := t.cores, cnt := t.cnt } ∧ CoresKept s t c

/-! ## Links and packets -/

/-- Nothing changes but ports, registers of the list, counters and what has been sent. -/
def PortsOnly (s t : State) (l : List Nat) : Prop :=
  t = { s with fab := { s.fab with ports := t.fab.ports }, regs := t.regs, cnt := t.cnt, out := t.out } ∧ RegsKept s t l

/-- The port is in STATE with CAUSE and carries no width. -/
def PortShows (t : State) (n state cause : Nat) : Prop :=
  t.portState n = state ∧ t.fld (rPort n) 50 4 = cause ∧ t.portWidth n = 0

/-- The port has left its group for `state` with `cause`; its packets wait, and a RESYNC has gone to its peer by the first
path that R305 gives, if one is up. -/
def LeftGroup (s t : State) (n state cause : Nat) : Prop :=
  PortShows t n state cause ∧ (t.port n).resync = some (s.now, s.now) ∧ (t.port n).replay = (s.port n).replay ∧
    t.out = s.out ++ ((s.resyncPaths n).head?.map fun m => Output.packet m (s.resyncPacket n)).toList

/-- The one packet sent since `s`, if there is one: a response of type `typ` to the request, with its TAG, its generation and
its bank, in the control class (R272, R274, R298). One is sent wherever the requester has an entry and its direction a port. -/
def Answered (s t : State) (home : Nat) (req : Packet) (typ : BitVec 4) (st : BitVec 8) (data8 : Word) (pl : Payload) : Prop :=
  let e := s.ept home req.bank req.srcEp.toNat
  ∃ l, t.out = s.out ++ l ∧ l.length ≤ 1 ∧
    (∀ o ∈ l, ∃ n q, o = .packet n q ∧ q.typ = typ ∧ q.status = st ∧ q.data8 = data8 ∧ q.payload = pl ∧ q.dstEp = req.srcEp ∧
      q.srcEp = req.dstEp ∧ q.tag = req.tag ∧ q.rgen = req.rgen ∧ q.seq = req.seq ∧ q.bank = req.bank ∧ q.tc = 2 ∧
      q.min = true ∧ q.ph = true ∧ headerOk q = true) ∧
    (eValid e = true → (∀ d, nextDir s.extents s.coord (coordOf (eCoord e)) = some d → s.groupUp d ≠ []) → l.length = 1)

/-- What a response may change: ports, registers in the list, the count of a closed service request, counters. -/
def AnswerOnly (s t : State) (l : List Nat) : Prop :=
  PortsOnly s t (rBankCnt false :: rBankCnt true :: l)

/-- The distance of two coordinates of an axis, by the shorter way. -/
def axisDist (a b ext : Nat) : Nat := min ((b + ext - a) % ext) ((a + ext - b) % ext)

/-- The coordinate lies inside the system. -/
def Coord.within (c ext : Coord) : Prop := c.x < ext.x ∧ c.y < ext.y ∧ c.z < ext.z

/-- The commands that carry a memory or notification request to the ingress, with their packet types (Table 8.5). -/
def requestCommand (port : Fin 36) (p : Packet) : List (Instr × BitVec 4) :=
  [(.writeTile port p, 1), (.readTile port p, 2), (.write8 port p, 3), (.read8 port p, 4), (.notify port p, 5)]

/-! ## Collectives -/

/-- Two members of a group: the same descriptor, and positions that differ only on axis `a`, where `d` is next after `c`. -/
def NextOn (a : Nat) (c d : Coll) : Prop :=
  d.desc = c.desc ∧ d.pos a = (c.pos a + 1) % c.ext a ∧ ∀ b, b < 3 → b ≠ a → d.pos b = c.pos b

/-- A WIDE element that is INV, SAT, or a sum of at most `n` KS64 values. -/
def WideOf (n : Nat) (w : BitVec 80) : Prop := w = collInv ∨ w = collSat ∨ w.toInt.natAbs < n * 2 ^ 63

/-- The collective has ended: it holds no slot, its later packets are known as late, COL_ERR of both instances shows it, and its
command is done (R353, R354). -/
def CollEnded (s t : State) (c : Coll) (st : BitVec 8) (cause : Nat) : Prop :=
  t.findColl c.ring c.idx = none ∧ (c.epn, c.id) ∈ t.fab.ended ∧
    (∀ d, t.fld (rColErr d) 56 8 = st.toNat ∧ t.fld (rColErr d) 52 4 = c.ctx.val ∧ t.fld (rColErr d) 48 4 = cause ∧
      t.fld (rColErr d) 0 32 = c.id.toNat) ∧
    t.host.cmds = s.host.cmds.map fun m =>
      if m.ring = c.ring ∧ m.idx = c.idx then
        { m with status := if m.status = 0 then st else m.status, done := true, detail := BitVec.ofNat 32 cause }
      else m

/-- One collective has become `y`; nothing else of the state is different. -/
def CollBecomes (s t : State) (r : Nat) (i : BitVec 32) (y : Coll) : Prop :=
  t = { s with colls := t.colls } ∧ t.findColl r i = some y ∧ (∀ r' i', (r', i') ≠ (r, i) → t.findColl r' i' = s.findColl r' i')

/-- The rings of a reducing collective have begun: it runs, with the credits that it has at first, and the first level sends
its first segment (R328, R333, R342). -/
def RingsBegin (s u : State) (x : Coll) : Prop :=
  ∃ y, CollBecomes s u x.ring x.idx y ∧
    y = { x with
      phase := .running, again := none, yield := none, lastData := y.lastData, credits := y.credits, todo := x.firstItems } ∧
    (∀ d, d < 2 → mget (fun _ => 0) y.lastData d = s.now) ∧
    ∀ k, k < 16 → mget (fun _ => 0) y.credits k = if x.levels.contains (k % 4) then x.slots / (2 * x.levels.length) else 0

/-! ## Commands, mailboxes, host links -/

/-- The rows that start a command of a ring, with whether the descriptor is one of theirs (Table 10.5). -/
def startRows (ring : Fin 64) (d : BitVec 1024) : List (Instr × Bool) :=
  let kind := dsc d 0x10 1
  let mv := fun k => dType d == 2 && kind == k
  let co := fun k => dType d == 3 && dsc d 0x14 1 == k
  let fe := fun k => dType d == 4 && kind == k
  [(.launch ring d, dType d == 1), (.moveCopy ring d, mv 0), (.movePut ring d, mv 1), (.moveGet ring d, mv 2),
    (.rdmaWrite ring d, mv 3), (.rdmaRead ring d, mv 4), (.allReduce ring d, co 0), (.reduceScatter ring d, co 1),
    (.allGather ring d, co 2), (.dispatch ring d, co 3), (.fenceOrder ring d, fe 0), (.fenceCommand ring d, fe 1),
    (.fenceDomain ring d, fe 2), (.counters ring d, dType d == 5), (.maint ring d, dType d == 6)]

/-- The command of an index of a ring is done, with a status. -/
def CmdEnds (t : State) (r : Nat) (i : BitVec 32) (st : BitVec 8) : Prop :=
  ∃ c ∈ t.host.cmds, c.ring = r ∧ c.idx = i ∧ c.status = st ∧ c.done = true

/-- The next command of a ring has been started: it is recorded with the time, and the ring goes on. -/
def Begun (s b : State) (r : Nat) (d : BitVec 1024) : Prop :=
  (∃ c, b.host = { s.host with cmds := s.host.cmds ++ [c], ringNext := b.host.ringNext } ∧ c.ring = r ∧ c.idx = s.ringNext r ∧
    c.desc = d ∧ c.start = s.ftc ∧ c.status = 0 ∧ c.warn = 0 ∧ c.done = false) ∧
    b.ringNext r = s.ringNext r + 1 ∧ (∀ q, q ≠ r → b.ringNext q = s.ringNext q) ∧
    (s.rbit rObsLogCfg 63 = false → b = { s with host := b.host })

/-- Operations have come to the points of coherence, each for a requester. -/
def ArrivedFor (s t : State) (l : List (Nat × PocKind × Requester)) : Prop :=
  ∃ n, t.mem.ops = s.mem.ops ++ n ∧ n.map (fun o => (o.tile, o.kind, o.who)) = l ∧ ∀ o ∈ n, o.opened = false

/-- A mailbox shows its request answered; no other mailbox is different. -/
def Replied (s t : State) (k : Nat) (r : BitVec 512) (st : BitVec 8) (v : Word) : Prop :=
  t.mailbox k = { req := r, busy := false, status := st, value := v } ∧ ∀ j, j ≠ k → t.mailbox j = s.mailbox j

/-- The instruction of an application core has written rd, x0 excepted, and no other register of it, and raised no trap. -/
def WroteX (s t : State) (a : AppCore) (rd : BitVec 5) (v : Word) : Prop :=
  (∀ n, mget (fun _ => 0) (t.app a).x n = if n = rd.toNat ∧ rd ≠ 0 then v else mget (fun _ => 0) (s.app a).x n) ∧
    (t.app a).trap = none ∧ ∀ b, b ≠ a → t.app b = s.app b

/-- The instruction has raised a trap, and has had no other effect on the application cores. -/
def Trapped (s t : State) (a : AppCore) (tr : Trap) : Prop :=
  t.app a = { s.app a with trap := some tr } ∧ ∀ b, b ≠ a → t.app b = s.app b

/-! ## Power -/

/-- Nothing changes but the governor and registers of the list. -/
def GovOnly (s t : State) (l : List Nat) : Prop :=
  t = { s with regs := t.regs, sys := { s.sys with gov := t.sys.gov } } ∧ RegsKept s t l

/-- Alerts `l` are set, and no other changes. -/
def Alerts (s t : State) (l : List Nat) : Prop :=
  ∀ k, k < 64 → t.rbit rPwrAlert k = (decide (k ∈ l) || s.rbit rPwrAlert k)

/-- The limits of R391 on an envelope. -/
def EnvelopeOk (e : Envelope) : Prop :=
  (550 ≤ e.ceil ∧ e.ceil ≤ 4000) ∧ (550 ≤ e.pfloor ∧ e.pfloor ≤ e.ceil) ∧
    (e.target = 0 ∨ (e.pfloor ≤ e.target ∧ e.target ≤ e.ceil)) ∧ (10 ≤ e.up ∧ e.up ≤ 40000) ∧ (10 ≤ e.down ∧ e.down ≤ 40000) ∧
    (10 ≤ e.win ∧ e.win ≤ 10000) ∧ (e.slots = true → e.len ≠ 0) ∧ (e.period = 0 ∨ e.len ≤ e.period)

/-- What stops at an isolation or a shutdown (R409, R414): no port is up, every partition is fenced, no core fills, and every VCORE
whose regulator answers is set to 0.60 V. -/
def Halted (s t : State) : Prop :=
  (∀ n, n < 36 → t.portUp n = false) ∧ (∀ p : Fin 4, (t.part p).fenced = true ∧ t.rbit rMgtBoot (52 + p.val) = false) ∧
    (∀ c, (t.core c).st = .fenced ∨ (t.core c).st = .fault) ∧ (∀ c, (t.core c).fillAmt = 0) ∧
    ∀ p : Fin 4, s.fld (rPwrRail p.val) 0 4 ≠ 3 → t.fld (rPwrRail p.val) 48 16 = 600

/-! ## Resets and events -/

/-- The newest entry of the event log has the code, detail and time given (R460, Table 13.6). -/
def LogShows (s t : State) (code detail : Nat) : Prop :=
  let n := s.fld rMgtEvtPtr 0 6
  let w := t.reg (rMgtEvt n)
  fieldN w 56 8 = code ∧ fieldN w 40 16 = s.fld rMgtEvtPtr 32 32 % 2 ^ 16 ∧ fieldN w 0 40 = detail ∧ t.reg (rMgtEvtT n) = s.ftc ∧
    t.fld rMgtEvtPtr 0 6 = (n + 1) % 64

/-- The generations of the list, and no others, have gone up by one (R450). -/
def GenerationsUp (s t : State) (l : List Nat) : Prop :=
  ∀ d, d < 388 ∨ (400 ≤ d ∧ d ≤ 416) → t.gen d = if d ∈ l then s.gen d + 1 else s.gen d

/-- RST_STAT of the domain's partition shows the step. -/
def StatShows (t : State) (d : Domain) (step : Nat) : Prop :=
  ∀ p, domPart d = some p → t.rbit (rRstStat p) 63 = true ∧ t.fld (rRstStat p) 60 3 = resetKind d ∧ t.fld (rRstStat p) 56 4 = step ∧
    t.fld (rRstStat p) 47 9 = resetTarget d

/-- A reset of the domain has begun and stands at DRAIN; the resets inside it have been taken over (R446, R448). -/
def ResetBegun (s t : State) (d : Domain) (hold : Bool) : Prop :=
  t.resets = s.resets.filter (fun j => !domWithin j.dom d) ++
    [{ dom := d, step := 3, hold := hold, held := false, dump := false, start := s.now, dumpTime := 0, fail := false }] ∧
    StatShows t d 3

/-- A message of the management pair has been acted on. -/
def ActedOn (s t : State) (m : PairCopy) : Prop := t.out = s.out ++ [.mgmt m.body]

/-- A management core is fenced with a cause; if it was the active one the other, in COMPARE, has taken over (R470). -/
def PairFenced (s t : State) (b : Bool) (cause : Nat) : Prop :=
  t.mgmtSt b = 4 ∧ t.fld rMgtPair 52 4 = cause ∧ t.rbit rMgtPair 51 = b ∧ t.rbit rMgtBoot 49 = true ∧
    t.activeB = (if s.activeB = b then !b else s.activeB) ∧ t.mgmtSt (!b) = s.mgmtSt (!b)

/-! ## Self-test and updates -/

/-- The die-to-die channel of a TARGET of D2D_CHAN is out of service. -/
def ChannelOut (t : State) (target : Nat) : Prop :=
  (mget (fun _ => 0) (t.part (partNo (target / 16))).chanOut (target / 64)).getLsbD (target % 16) = true

/-- Slice `n` has left the queue and BST shows how it ended (R489, Table 14.8). -/
def SliceEnded (s t : State) (n : Nat) (x : Slice) (st : BitVec 8) (verdict : Nat) (cov : Nat × Nat) (us : Nat) : Prop :=
  let runs := min (s.fld rBstStat 0 32 + 1) 0xFFFFFFFF
  t.sys.bst.queue = s.sys.bst.queue.eraseIdx n ∧ t.fld rBstStat 0 32 = runs ∧
    t.fld rBstStat 32 16 = (if verdict = 1 then min (s.fld rBstStat 32 16 + 1) 0xFFFF else s.fld rBstStat 32 16) ∧
    t.fld rBstLast 48 16 = x.code % 2 ^ 16 ∧ t.fld rBstLast 40 8 = st.toNat ∧ t.fld rBstLast 38 2 = verdict ∧
    t.fld rBstLast 16 16 = runs % 2 ^ 16 ∧ t.fld rBstLast 0 16 = x.target % 2 ^ 16 ∧ t.fld rBstLastCov 54 10 = cov.1 ∧
    t.fld rBstLastCov 44 10 = cov.2 ∧ t.fld rBstLastCov 16 16 = runs % 2 ^ 16 ∧ t.fld rBstLastCov 0 16 = min us 0xFFFF

/-- An update has ended: STATE is IDLE, with CAUSE and RESULT (R519). -/
def UpdateEnded (t : State) (cause : Nat) (result : BitVec 8) : Prop :=
  t.updState = 0 ∧ t.fld rMgtUpdStat 52 8 = cause ∧ t.fld rMgtUpdStat 44 8 = result.toNat

/-- Every bank that is not the active one is empty (R507). -/
def BanksEmpty (t : State) : Prop :=
  ∀ i, i < 7 → mget (fun _ => []) t.sys.fw.banks (2 * i + if t.sys.fw.active.getLsbD i then 0 else 1) = []

/-- The package as the loader finds it when GO has been written. -/
def State.loading (s : State) (v : Word) : State :=
  ((s.mergeReg rMgtUpdCtl v).modUpd fun _ => { Upd.reset with oldRel := s.sys.fw.release }).setReg rMgtUpdStat 0

/-! ## Control space and reset -/

/-- A register of which a rule of its own tells what a write does, and a command that writes it. -/
def OwnRule (src : RegSource) (v : Word) (p : Fin 4) (d : Fin 2) (c : Fin 16) (n : Fin 64) (port : Fin 36) (a : Nat) (i : Instr) : Prop :=
  (a, i) ∈ [(rMgtRst, .pkgReset src v), (rMgtPair, .readmit src v), (rMgtPair, .pairSwap src v), (rMgtStageCtl, .storeConfig src v),
    (rMgtStageCtl, .installToken src v), (rMgtUpdCtl, .updateStart src v), (rMgtUpdCtl, .apply src v), (rMgtUpdCtl, .abort src v),
    (rMgtUpdCtl, .rollback src v), (rMgtPeerFail, .peerFail src v), (rPwrEnvCtl, .commit src v), (rPwrEnvCtl, .emerg src v),
    (rPwrHb, .beat src v), (rThmCool, .coolantWrite src v), (rObsLatch, .latch src v), (rObsFtcSet, .ftcSet src v),
    (rRstCtl p, .rstCore p src v), (rRstCtl p, .rstCluster p src v), (rRstCtl p, .rstPartition p src v),
    (rRstCtl p, .holdRelease p src v), (rCtxStat c.val, .contextDisable src c v), (rRingCfg n.val, .ringEnable src n v),
    (rEpwBase n.val, .epwValidate src n v), (rBankCtl, .arm src v), (rEptIdx d, .eptRead d src v), (rEptIdx d, .eptWrite d src v),
    (rEptLoad d, .eptLoad d src v), (rPort port.val, Instr.portDisable src port v)]

/-- Registers whose fields are written by their access codes alone (R8). -/
def plainRegs : List Nat :=
  [rMgtStage 0, rMgtUpdSrc, rMgtUpdRpt, rMgtDumpStat, rPwrEnvLim, rPwrEnvRamp, rPwrEnvHoist, rPwrEnvHoistAt, rPwrAlert, rPwrAlertMask,
    rTrcCtl, rRstWfd 0, rHstAper 0, rCtxQuota 0, rBankAt, rEptData 0, rEptSrc 0, rMgtBoot, rMgtLc, rMgtLic, rPwrStat, rThmTrip, rObsPtc,
    rBstStat, rSgStat 0, rFlogPtr 0, rGeom, rLsm 0, rColErr 0]

/-- A field of a register that takes the values from `lo` to `hi` only. -/
def boundedFields : List (Nat × Nat × Nat × Nat × Nat) :=
  [(rThmCfg, 56, 8, 85, 105), (rThmCfg, 48, 8, 75, 95), (rBstSched, 32, 16, 1, 8760), (rBstSched, 16, 16, 1, 3600),
    (rScrubCtl 0, 32, 16, 1, 8760), (rColCfg 0, 32, 16, 1, 0xFFFF), (rColCfg 0, 16, 16, 1, 0xFFFF), (rColCfg 1, 0, 16, 1, 0xFFFF),
    (rMgtUpdCfg, 0, 16, 10, 3600)]

end Sys2Proof.Machine
end

