-- ==== Sys2Proof/WellFormed.lean ====
section
/-! DEFINITION. Which terms of Instr stand for an event that can occur: the packet of a packet's row is of that row's type
and carries that type's payload (Tables 8.4, 8.5, 9.3), and what a command carries has the length it says. The types of
the operands hold the rest. A term that fails a check changes nothing when the model runs it. -/

namespace Sys2Proof

/-- A payload is present exactly for the packet types that carry a tile (R270). -/
def Payload.isTile : Payload → Bool
  | .tile _ => true
  | _ => false

def Payload.isNone : Payload → Bool
  | .none => true
  | _ => false

/-- The packet is of a type of Table 8.5, with the payload of that type. COLL packets carry what Table 9.4 says. -/
def Packet.wellTyped (p : Packet) (typ : Nat) : Bool :=
  p.typ.toNat == typ && match typ with
    | 1 | 11 => p.payload.isTile
    | 9 => true
    | _ => p.payload.isNone

/-- The size of an access to a BAR in bytes (R358): 1 to 4,096. -/
def accessLen (n : Nat) : Bool := decide (1 ≤ n ∧ n ≤ 4096)

/-- No entry twice. -/
def noRepeat {α : Type} [DecidableEq α] : List α → Bool
  | [] => true
  | a :: r => !(r.contains a) && noRepeat r

/-- The checks on each command. -/
def Instr.wf : Instr → Bool
  | .regWrite _ _ size _ => size == 1 || size == 2 || size == 4 || size == 8
  | .writeTile _ p => p.wellTyped 1
  | .readTile _ p => p.wellTyped 2
  | .write8 _ p => p.wellTyped 3
  | .read8 _ p => p.wellTyped 4
  | .notify _ p => p.wellTyped 5
  | .openStream _ p => p.wellTyped 6
  | .closeStream _ p => p.wellTyped 7
  | .mgmt _ p => p.wellTyped 8
  | .ack _ p => p.wellTyped 10
  | .readResp _ p => p.wellTyped 11
  | .resp8 _ p => p.wellTyped 12
  | .nack _ p => p.wellTyped 13
  | .collHeld _ p | .collGo _ p | .collYield _ p | .yieldOk _ p | .goSent _ p | .collData _ p | .collCredit _ p
  | .collFin _ p | .collEnd _ p => p.wellTyped 9
  | .bar2Access _ _ w _ len data => accessLen len && (if w then data.length == len else data.isEmpty)
  | .roceRequest _ w _ _ tiles data => decide (1 ≤ tiles) && (if w then data.length == tiles else data.isEmpty)
  | .avsRead volts amps => volts.length == 9 && amps.length == 9
  | .hbmTempRead _ temps => temps.length == 6
  | .tracePacket _ _ bytes _ => decide (1 ≤ bytes.length)
  | .memoryPhaseEnd h r => noRepeat h && noRepeat r
  | .clocksPhaseEnd l _ => noRepeat l
  | .knownAnswerRun _ _ f => noRepeat f
  | _ => true

end Sys2Proof
end

