-- ==== Sys2Proof/Certificates/Slice0/Obligations.lean ====
section
/-! DEFINITION. The statements for the provers. -/

open Sys2Proof Sys2Proof.Machine

/-! ## The queue -/

/-- A step takes the command at the front of the queue and answers what exec answers on the state with the queue's rest. -/
def Obligations.StepRunsFront : Prop :=
  ∀ (c : Instr) (rest : List Instr) (s : State),
    step { s with pending := c :: rest } = exec c { s with pending := rest }

/-- On an empty queue the package idles for a nanosecond: time and the FTC go on and nothing else changes (log entry 2). Over any
10,000 nanoseconds the FTC counts 9,999, 10,000 or 10,001 ticks, whatever the rate to which it was steered (R496). -/
def Obligations.IdleStep : Prop :=
  (∀ s : State, s.pending = [] → ∃ k, k ≤ 2 ∧ step s = .next { s with now := s.now + 1, ftc := s.ftc + BitVec.ofNat 64 k }) ∧
  (∀ (r : Int) (n : Nat),
    let ticks := ((List.range 10000).map fun i => ftcTicks (n + i) r).sum
    9999 ≤ ticks ∧ ticks ≤ 10001 ∧ (0 ≤ r → 10000 ≤ ticks) ∧ (r ≤ 0 → ticks ≤ 10000))

/-! ## Fenyo vector and scalar operations -/

/-- VIADD to VSRA give each enabled element its value modulo the width, and change nothing else (R148, Table 4.11). VFMA, VADD, VSUB
and VMUL round the exact result once; VMIN and VMAX follow R547. Nothing else changes. A result without a stated NaN payload is some
NaN (log entry 7). VSEL copies bits of a or b under p[VC], VBCST the low bits of s[VA], VPERM element b[i] mod n of a; VEXT writes
element s[VB] mod 64 of v[VA] to s[VD] (Table 4.11, R82, R123). VCMP writes the bits of p[VD] that govern the enabled elements: two
16-bit elements share a bit, a 64-bit element has bit 2 i; p0 is not written (R82, Table 4.11). Choices of the model in it: log
entry 12. -/
def Obligations.VectorOperations : Prop :=
  (∀ (s : State) (c : CoreAddr) (f : FVR),
     VecIntOk s c f (.viadd f) (.viadd c f) (fun _ a b => a + b) ∧
     VecIntOk s c f (.visub f) (.visub c f) (fun _ a b => a - b) ∧
     VecIntOk s c f (.vand f) (.vand c f) (fun _ a b => a &&& b) ∧
     VecIntOk s c f (.vor f) (.vor c f) (fun _ a b => a ||| b) ∧
     VecIntOk s c f (.vxor f) (.vxor c f) (fun _ a b => a ^^^ b) ∧
     VecIntOk s c f (.vshl f) (.vshl c f) (fun w a b => a <<< (b.toNat % w)) ∧
     VecIntOk s c f (.vshr f) (.vshr c f) (fun w a b => a >>> (b.toNat % w)) ∧
     VecIntOk s c f (.vsra f) (.vsra c f) (fun w a b => a.sshiftRight (b.toNat % w))) ∧
  (∀ (s : State) (c : CoreAddr) (f : FVR),
     VecFloatOk s c f (.vfma f) (.vfma c f) (fun rm a b d => addVal rm (mulVal a b) d) ∧
     VecFloatOk s c f (.vadd f) (.vadd c f) (fun rm a b _ => addVal rm a b) ∧
     VecFloatOk s c f (.vsub f) (.vsub c f) (fun rm a b _ => addVal rm a (negVal b)) ∧
     VecFloatOk s c f (.vmul f) (.vmul c f) (fun _ a b _ => mulVal a b) ∧
     VecPickOk s c f (.vmin f) (.vmin c f) (fun x y => below x y) ∧
     VecPickOk s c f (.vmax f) (.vmax c f) (fun x y => below y x)) ∧
  (∀ (s : State) (c : CoreAddr) (f : FVR),
     let k := s.core c
     let w := intWidth f.ty
     VecMoveOk s c f (.vsel f) (.vsel c f) (fun j =>
       if predOn (k.getP (f.vc.toNat % 8)) w j then vElem (k.getV f.va.toNat) w j else vElem (k.getV f.vb.toNat) w j) ∧
     VecMoveOk s c f (.vbcst f) (.vbcst c f) (fun _ => (k.getS (f.va.toNat % 32)).toNat % 2 ^ w) ∧
     VecMoveOk s c f (.vperm f) (.vperm c f) (fun j =>
       vElem (k.getV f.va.toNat) w (vElem (k.getV f.vb.toNat) w j % (4096 / w))) ∧
     ScalarOk s c f.pred (BitVec.ofNat 5 f.vd.toNat) (.vext f) (.vext c f)
       (BitVec.ofNat 64 (vElem (k.getV f.va.toNat) 64 ((k.getS (f.vb.toNat % 32)).toNat % 64)))) ∧
  (∀ (s : State) (c : CoreAddr) (f : FVR), SlotFree s c (.vcmp f) →
     ∃ t, exec (.vcmp c f) s = .next t ∧ OnlyP s t c (f.vd.toNat % 8) ∧
       ∀ b, b < 128 → f.vd.toNat % 8 ≠ 0 →
         ((t.core c).getP (f.vd.toNat % 8)).getLsbD b =
           if !((s.core c).getP f.pred.toNat).getLsbD b || (vcmpWidth f == 64 && b % 2 == 1) then
             ((s.core c).getP (f.vd.toNat % 8)).getLsbD b
           else if vcmpWidth f = 16 then vcmpAt (s.core c) f (2 * b) && vcmpAt (s.core c) f (2 * b + 1)
           else if vcmpWidth f = 64 then vcmpAt (s.core c) f (b / 2)
           else vcmpAt (s.core c) f b)

/-- The scalar operations of Table 4.14 write s[RD], modulo 2^64; s0 stays zero, a predicate whose bit 0 is 0 writes nothing, and
nothing else changes (R80, R82, R123, R154). SCMP writes every bit of p[PD] with the condition; p0 stays all ones (R80, R123).
Choices of the model in it: log entry 12. -/
def Obligations.ScalarOperations : Prop :=
  (∀ (s : State) (c : CoreAddr) (f : FLR) (g : FLI) (h : FLV),
     let a := (s.core c).getS f.ra.toNat
     let b := (s.core c).getS f.rb.toNat
     let x := (s.core c).getS g.ra.toNat
     ScalarOk s c f.pred f.rd (.add f) (.add c f) (a + b) ∧
     ScalarOk s c f.pred f.rd (.sub f) (.sub c f) (a - b) ∧
     ScalarOk s c f.pred f.rd (.and f) (.and c f) (a &&& b) ∧
     ScalarOk s c f.pred f.rd (.or f) (.or c f) (a ||| b) ∧
     ScalarOk s c f.pred f.rd (.xor f) (.xor c f) (a ^^^ b) ∧
     ScalarOk s c f.pred f.rd (.shl f) (.shl c f) (a <<< (b.toNat % 64)) ∧
     ScalarOk s c f.pred f.rd (.shr f) (.shr c f) (a >>> (b.toNat % 64)) ∧
     ScalarOk s c f.pred f.rd (.sra f) (.sra c f) (a.sshiftRight (b.toNat % 64)) ∧
     ScalarOk s c f.pred f.rd (.mul f) (.mul c f) (a * b) ∧
     ScalarOk s c g.pred g.rd (.addi g) (.addi c g) (x + g.imm.signExtend 64) ∧
     ScalarOk s c g.pred g.rd (.andi g) (.andi c g) (x &&& g.imm.signExtend 64) ∧
     ScalarOk s c g.pred g.rd (.shli g) (.shli c g) (x <<< (g.imm.toNat % 64)) ∧
     ScalarOk s c g.pred g.rd (.shri g) (.shri c g) (x >>> (g.imm.toNat % 64)) ∧
     ScalarOk s c h.pred h.rd (.movi h) (.movi c h) (match h.lit with
       | none => h.imm.signExtend 64
       | some l => BitVec.ofNat 64 (l.toNat * 2 ^ 24 + h.imm.toNat % 2 ^ 24))) ∧
  (∀ (s : State) (c : CoreAddr) (f : FLC), SlotFree s c (.scmp f) →
     let k := s.core c
     let a := k.getS f.ra.toNat
     let b := k.getS f.rb.toNat
     ∃ t, exec (.scmp c f) s = .next t ∧ OnlyP s t c f.pd.toNat ∧
       (f.pd ≠ 0 → k.enabled f.pred = false → (t.core c).getP f.pd.toNat = k.getP f.pd.toNat) ∧
       (f.pd ≠ 0 → k.enabled f.pred = true → ∃ r, (t.core c).getP f.pd.toNat = (if r then BitVec.allOnes 128 else 0) ∧
         (f.cond = 0 → (r = true ↔ a = b)) ∧ (f.cond = 1 → (r = true ↔ a ≠ b)) ∧
         (f.cond = 2 → (r = true ↔ a.toInt < b.toInt)) ∧ (f.cond = 3 → (r = true ↔ a.toNat < b.toNat)) ∧
         (f.cond = 4 → (r = true ↔ b.toInt ≤ a.toInt)) ∧ (f.cond = 5 → (r = true ↔ b.toNat ≤ a.toNat))))

/-- VKADDW and VKNAR act on wide KS64 lanes as R151 gives them, lane i under predicate bit 2 i. The scale-maximum registers (R152):
VSCAN folds the bytes of v[VA], VSMR reads the state word, VSMW folds a word that has no bit above 9, and with such a bit takes
ILLEGAL_BUNDLE. Choices of the model in it: log entries 12 and 89. -/
def Obligations.WideAndScale : Prop :=
  (∀ (s : State) (c : CoreAddr) (f : FVR),
     (SlotFree s c (.vkaddw f) → ∃ t, exec (.vkaddw c f) s = .next t ∧ OnlyV s t c [f.vd.toNat, f.vd.toNat + 1] ∧
       ∀ i, i < 64 →
         let a := (s.core c).wideLane f.va.toNat i
         let b : Word := BitVec.ofNat 64 (vElem ((s.core c).getV f.vb.toNat) 64 i)
         (t.core c).wideLane f.vd.toNat i =
           if ((s.core c).getP f.pred.toNat).getLsbD (2 * i) then
             if a = BitVec.ofNat 128 (2 ^ 127) ∨ b = BitVec.ofNat 64 (2 ^ 63) then BitVec.ofNat 128 (2 ^ 127)
             else if a = BitVec.ofNat 128 (2 ^ 127 + 1) ∨ b = BitVec.ofNat 64 (2 ^ 63 - 1) ∨ b = BitVec.ofNat 64 (2 ^ 63 + 1)
               then BitVec.ofNat 128 (2 ^ 127 + 1)
             else BitVec.ofInt 128 (a.toInt + b.toInt)
           else (s.core c).wideLane f.vd.toNat i) ∧
     (SlotFree s c (.vknar f) → ∃ t, exec (.vknar c f) s = .next t ∧ OnlyV s t c [f.vd.toNat] ∧
       ∀ i, i < 64 →
         let a := (s.core c).wideLane f.va.toNat i
         (BitVec.ofNat 64 (vElem ((t.core c).getV f.vd.toNat) 64 i) : Word) =
           if ((s.core c).getP f.pred.toNat).getLsbD (2 * i) then
             if a = BitVec.ofNat 128 (2 ^ 127) then BitVec.ofNat 64 (2 ^ 63)
             else if a = BitVec.ofNat 128 (2 ^ 127 + 1) ∨ 2 ^ 63 - 2 < a.toInt.natAbs then
               (if 0 < a.toInt then BitVec.ofNat 64 (2 ^ 63 - 1) else BitVec.ofNat 64 (2 ^ 63 + 1))
             else BitVec.ofInt 64 a.toInt
           else BitVec.ofNat 64 (vElem ((s.core c).getV f.vd.toNat) 64 i))) ∧
  (∀ (s : State) (c : CoreAddr) (f : FVN) (g : FVQ),
     let k := s.core c
     let nan := fun (b : Bool) (m : Core) => (m.getSm b).getLsbD 9
     let seen := fun (b : Bool) (m : Core) => (m.getSm b).getLsbD 8
     let top := fun (b : Bool) (m : Core) => (m.getSm b).toNat % 256
     (SlotFree s c (.vscan f) → ∃ t, exec (.vscan c f) s = .next t ∧ OnlyCore s t c ∧
       t.core c = { k with sma := (t.core c).sma, smb := (t.core c).smb, waitBeats := 0, fill := false } ∧
       (t.core c).getSm (!f.sm) = k.getSm (!f.sm) ∧
       (k.enabled f.pred = false → (t.core c).getSm f.sm = k.getSm f.sm) ∧
       (k.enabled f.pred = true →
         let byte := fun i => vByte (k.getV f.va.toNat) i
         (nan f.sm (t.core c) = true ↔ nan f.sm k = true ∨ ∃ i, i < 64 * (f.nr.toNat + 1) ∧ byte i = 255) ∧
         seen f.sm (t.core c) = true ∧
         (∀ i, i < 64 * (f.nr.toNat + 1) → byte i ≠ 255 → byte i ≤ top f.sm (t.core c)) ∧
         top f.sm k ≤ top f.sm (t.core c) ∧
         (top f.sm (t.core c) = top f.sm k ∨ ∃ i, i < 64 * (f.nr.toNat + 1) ∧ byte i ≠ 255 ∧ byte i = top f.sm (t.core c)))) ∧
     ScalarOk s c g.pred g.rs (.vsmr g) (.vsmr c g) ((k.getSm g.sm).setWidth 64) ∧
     (SlotFree s c (.vsmw g) → k.getS g.rs.toNat >>> 10 = 0 → ∃ t, exec (.vsmw c g) s = .next t ∧ OnlyCore s t c ∧
       t.core c = { k with sma := (t.core c).sma, smb := (t.core c).smb, waitBeats := 0, fill := false } ∧
       (t.core c).getSm (!g.sm) = k.getSm (!g.sm) ∧
       (k.enabled g.pred = false → (t.core c).getSm g.sm = k.getSm g.sm) ∧
       (k.enabled g.pred = true →
         let x := k.getS g.rs.toNat
         let side := fun (y : Bool) (n : Nat) => if y then n else 0
         (nan g.sm (t.core c) = (nan g.sm k || bit x 9 || (bit x 8 && fieldN x 0 8 == 255))) ∧
         seen g.sm (t.core c) = (seen g.sm k || bit x 8) ∧
         top g.sm (t.core c) = max (side (seen g.sm k) (top g.sm k)) (side (bit x 8) (fieldN x 0 8)))) ∧
     (SlotFree s c (.vsmw g) → k.getS g.rs.toNat >>> 10 ≠ 0 →
       exec (.vsmw c g) s = .next (s.precise c slotV xcIllegal 0)))

/-- VCVT.TO: each enabled element of the target takes the conversion of its FP32 element and other bits keep their value (R149,
R552); OVF is set if an enabled element overflowed, INV under a NaN tensor scale (R72, R546). The scale byte of a block of an MX
target is written if an element of the block is enabled. Where VS is VD, the bits that both name are left out: the manual orders
nothing there (log entry 91). VCVT.FROM: each enabled element takes the exact FP32 value of its narrow element, or a KS64 lane
rounded once; a KS64 anchor outside -512 to 511 raises ANCHOR (R149, R150, R552). Choices of the model in it: log entries 12 and 92.
-/
def Obligations.Conversions : Prop :=
  (∀ (s : State) (c : CoreAddr) (f : FVX), SlotFree s c (.vcvtTo f) →
     let k := s.core c
     let on := fun (i : Nat) => (k.getP f.pred.toNat).getLsbD i
     (∀ fm, outFmt f.fmt = some (.plain fm) → ∃ t, exec (.vcvtTo c f) s = .next t ∧ OnlyVFlags s t c [f.vd.toNat] ∧
       (∀ i, i < 128 →
         bitsAt ((t.core c).getV f.vd.toNat) (narrowBit fm f.part.toNat i) fm.bits =
           if on i then (cvtResult k f fm i).1 % 2 ^ fm.bits
           else bitsAt (k.getV f.vd.toNat) (narrowBit fm f.part.toNat i) fm.bits) ∧
       (∀ b, b < 64 → bit (t.core c).flags b = (bit k.flags b ||
         (b == 2 && (List.range 128).any fun i => on i && (cvtResult k f fm i).2) ||
         (b == 1 && fm != .bf16 && (scaleByte (k.getS f.vs.toNat) 0).toNat == 255)))) ∧
     (∀ fm, outFmt f.fmt = some (.mx fm) → ∃ t, exec (.vcvtTo c f) s = .next t ∧
       OnlyVFlags s t c [f.vd.toNat, f.vs.toNat] ∧
       (∀ i, i < 128 → f.vs.toNat ≠ f.vd.toNat →
         bitsAt ((t.core c).getV f.vd.toNat) (narrowBit fm f.part.toNat i) fm.bits =
           if on i then (cvtMxResult k f fm i).1 % 2 ^ fm.bits
           else bitsAt (k.getV f.vd.toNat) (narrowBit fm f.part.toNat i) fm.bits) ∧
       (∀ j, j < 4 → f.vs.toNat ≠ f.vd.toNat →
         vByte ((t.core c).getV f.vs.toNat) (4 * f.part.toNat + j) =
           if (List.range 32).any fun i => on (32 * j + i) then cvtScale k f fm j % 256
           else vByte (k.getV f.vs.toNat) (4 * f.part.toNat + j)) ∧
       FlagSet k (t.core c) 2 ((List.range 128).any fun i => on i && (cvtMxResult k f fm i).2))) ∧
  (∀ (s : State) (c : CoreAddr) (f : FVX), SlotFree s c (.vcvtFrom f) →
     let k := s.core c
     let p := k.getP f.pred.toNat
     (∀ fm mx, (outFmt f.fmt = some (.plain fm) ∧ mx = false ∨ outFmt f.fmt = some (.mx fm) ∧ mx = true) →
       ∃ t, exec (.vcvtFrom c f) s = .next t ∧ OnlyVFlags s t c [f.vd.toNat] ∧
         (∀ i, i < 128 → vElem ((t.core c).getV f.vd.toNat) 32 i =
           if p.getLsbD i then (cvtWide k f fm mx i).1 % 2 ^ 32 else vElem (k.getV f.vd.toNat) 32 i) ∧
         FlagSet k (t.core c) 2 ((List.range 128).any fun i => p.getLsbD i && (cvtWide k f fm mx i).2)) ∧
     (∀ fm, (outFmt f.fmt = some .ks64 ∧ fm = .fp32 ∨ outFmt f.fmt = some .ks64bf16 ∧ fm = .bf16) →
       (anchorOk (k.cvtAnchor f) = true → ∃ t, exec (.vcvtFrom c f) s = .next t ∧ OnlyVFlags s t c [f.vd.toNat] ∧
         (∀ i, i < 64 →
           bitsAt ((t.core c).getV f.vd.toNat) (64 * fm.bits * f.part.toNat + fm.bits * i) fm.bits =
             if p.getLsbD (2 * i) then (cvtKs k f fm i).1 % 2 ^ fm.bits
             else bitsAt (k.getV f.vd.toNat) (64 * fm.bits * f.part.toNat + fm.bits * i) fm.bits) ∧
         FlagSet k (t.core c) 2 ((List.range 64).any fun i => p.getLsbD (2 * i) && (cvtKs k f fm i).2)) ∧
       (anchorOk (k.cvtAnchor f) = false → exec (.vcvtFrom c f) s = .next (s.precise c slotV xcAnchor 0))))

/-- A load of core-local memory whose rows are good writes its register as Table 4.14 says, under the predicate of R153, and changes
nothing else but the count of rows read. A load whose rows do not pass the check writes no register: the core takes a deferred
TILE_CHECK with the status of the classification, and the partition's fault log takes an entry (R112, R168, R226). A store writes
the bytes of its register to core-local memory and no other byte. A partial store leaves GEN, FMT, OWNER, ANCHOR and FLAGS of a good
record; ST.T writes a whole tile under the slot's next generation, with the register's format and anchor, and the tile then
classifies GOOD (R153, R218, R219, R226). Choices of the model in it: log entries 9 and 12. -/
def Obligations.LocalMemory : Prop :=
  (∀ (s : State) (c : CoreAddr) (f : FLM),
     let k := s.core c
     let x := s.physD c
     let word := fun (a i n : Nat) => s.mem.localNum x (a + i) n
     (SlotFree s c (.ldS f) → k.enabled f.pred = true → AddrOk k f 8 → RowsGood s c (k.lmAddr f 8).toNat 8 →
       ∃ t, exec (.ldS c f) s = .next t ∧ OnlyCoreCnt s t c ∧
         t.core c = { k with s := (t.core c).s, waitBeats := 0, fill := false } ∧
         (∀ n, n ≠ f.rd.toNat → (t.core c).getS n = k.getS n) ∧
         (t.core c).getS f.rd.toNat = if f.rd = 0 then 0 else BitVec.ofNat 64 (word (k.lmAddr f 8).toNat 0 8)) ∧
     (SlotFree s c (.ldR f) → AddrOk k f 64 → RowsGood s c (k.lmAddr f 64).toNat 64 →
       ∃ t, exec (.ldR c f) s = .next t ∧ OnlyCoreCnt s t c ∧
         t.core c = { k with v := (t.core c).v, waitBeats := 0, fill := false } ∧
         (∀ n, n ≠ f.rd.toNat → (t.core c).getV n = k.getV n) ∧
         ∀ i, i < 128 → vElem ((t.core c).getV f.rd.toNat) 32 i =
           if i / 16 = f.row.toNat ∧ (k.getP f.pred.toNat).getLsbD i then word (k.lmAddr f 64).toNat (4 * (i % 16)) 4
           else vElem (k.getV f.rd.toNat) 32 i) ∧
     (SlotFree s c (.ldV f) → AddrOk k f 512 → RowsGood s c (k.lmAddr f 512).toNat 512 →
       ∃ t, exec (.ldV c f) s = .next t ∧ OnlyCoreCnt s t c ∧
         t.core c = { k with v := (t.core c).v, waitBeats := 0, fill := false } ∧
         (∀ n, n ≠ f.rd.toNat → (t.core c).getV n = k.getV n) ∧
         ∀ i, i < 128 → vElem ((t.core c).getV f.rd.toNat) 32 i =
           if (k.getP f.pred.toNat).getLsbD i then word (k.lmAddr f 512).toNat (4 * i) 4
           else vElem (k.getV f.rd.toNat) 32 i) ∧
     (SlotFree s c (.ldT f) → k.enabled f.pred = true → AddrOk k f 4096 → RowsGood s c (k.lmAddr f 4096).toNat 4096 →
       ∃ t, exec (.ldT c f) s = .next t ∧ OnlyCoreCnt s t c ∧
         t.core c = { k with t := (t.core c).t, waitBeats := 0, fill := false } ∧
         (∀ n, n ≠ f.rd.toNat → (t.core c).getT n = k.getT n) ∧
         let r := s.mem.localTileImg x ((k.lmAddr f 4096).toNat / 4096)
         (t.core c).getT f.rd.toNat = ⟨r.data, r.tcr.fmt, r.tcr.anchor⟩)) ∧
  (∀ (s : State) (c : CoreAddr) (f : FLM) (i : Instr) (op : SlotOp) (size : Nat),
     ((i, op, size) = (.ldS c f, .ldS f, 8) ∨ (i, op, size) = (.ldR c f, .ldR f, 64) ∨
       (i, op, size) = (.ldV c f, .ldV f, 512) ∨ (i, op, size) = (.ldT c f, .ldT f, 4096)) →
     SlotFree s c op → (elementwise op = true ∨ (s.core c).enabled f.pred = true) → AddrOk (s.core c) f size →
     ¬ RowsGood s c ((s.core c).lmAddr f size).toNat size →
     ∃ t, exec i s = .next t ∧ FilesKept (s.core c) (t.core c) ∧ t.mem = s.mem ∧ CoresKept s t c ∧
       (t.core c).pc = (s.core c).pc ∧ (t.core c).mayIssue = false ∧
       (bit (s.core c).faultReg 63 = false →
         fieldN (t.core c).faultReg 40 8 = 10 ∧ bit (t.core c).faultReg 62 = true ∧
         (fieldN (t.core c).faultReg 48 8 = 1 ∨ fieldN (t.core c).faultReg 48 8 = 2) ∧
         (t.core c).faultAddr = (s.core c).lmAddr f size) ∧
       t.fld (rFlogPtr c.p) 0 5 = (s.fld (rFlogPtr c.p) 0 5 + 1) % 32) ∧
  (∀ (s : State) (c : CoreAddr) (f : FLM),
     let k := s.core c
     let x := s.physD c
     let frame := fun (t : State) (a size : Nat) =>
       t = { s with cores := t.cores, cnt := t.cnt, mem := t.mem } ∧ CoresKept s t c ∧
       t.core c = { k with waitBeats := 0, fill := false } ∧
       t.mem = { s.mem with loc := t.mem.loc, locTcr := t.mem.locTcr } ∧
       (∀ y b, b < 0x200000 → (y ≠ x ∨ b < a ∨ a + size ≤ b) → t.mem.localByte y b = s.mem.localByte y b) ∧
       (∀ y n, n < 512 → (y ≠ x ∨ n ≠ a / 4096) → t.mem.localRec y n = s.mem.localRec y n)
     let part := fun (t : State) (a size : Nat) (v : Nat) =>
       frame t a size ∧ t.mem.localNum x a size = v % 2 ^ (8 * size) ∧
       (sumOf (s.mem.localRec x (a / 4096)) = (s.mem.localRec x (a / 4096)).sum →
         t.mem.localRec x (a / 4096) = { s.mem.localRec x (a / 4096) with
           code := (t.mem.localRec x (a / 4096)).code, sum := (t.mem.localRec x (a / 4096)).sum })
     (SlotFree s c (.stS f) → k.enabled f.pred = true → AddrOk k f 8 →
       ∃ t, exec (.stS c f) s = .next t ∧ part t (k.lmAddr f 8).toNat 8 (k.getS f.rd.toNat).toNat) ∧
     (SlotFree s c (.stR f) → k.enabled f.pred = true → AddrOk k f 64 →
       ∃ t, exec (.stR c f) s = .next t ∧
         part t (k.lmAddr f 64).toNat 64 (bitsAt (k.getV f.rd.toNat) (512 * f.row.toNat) 512)) ∧
     (SlotFree s c (.stV f) → k.enabled f.pred = true → AddrOk k f 512 →
       ∃ t, exec (.stV c f) s = .next t ∧ part t (k.lmAddr f 512).toNat 512 (k.getV f.rd.toNat).toNat) ∧
     (SlotFree s c (.stT f) → k.enabled f.pred = true → AddrOk k f 4096 →
       ∃ t, exec (.stT c f) s = .next t ∧ frame t (k.lmAddr f 4096).toNat 4096 ∧
         let n := (k.lmAddr f 4096).toNat / 4096
         t.mem.localData x n = (k.getT f.rd.toNat).data ∧
         (t.mem.localRec x n).gen = (s.mem.localRec x n).gen + 1 ∧
         (t.mem.localRec x n).fmt = (k.getT f.rd.toNat).fmt ∧ (t.mem.localRec x n).anchor = (k.getT f.rd.toNat).anchor ∧
         (t.mem.localRec x n).flags = 0 ∧ (t.mem.localRec x n).owner = s.ownerOf k.ctx ∧
         classifyTile (t.mem.localTileImg x n) = .good))

/-! ## Keystone -/

/-- A T operation whose operands are in place goes into flight with the operands read at issue, and changes no register file and no
memory (R49, R54, R55, R65, R94, R137, R147). An operation of the wrong path for the accumulator's mode does not execute: the core
takes a precise MODE exception and the accumulators keep their value (R54, R146, R167). Choices of the model in it: log entries 9
and 12. -/
def Obligations.TensorIssues : Prop :=
  (∀ (s : State) (c : CoreAddr),
     (∀ f : FTM, SlotFree s c (.tmma f) → (s.core c).enabled f.pred = true →
       (s.core c).srcCheck f.ma f.ta 1 = none → (s.core c).srcCheck f.mb f.tb 1 = none → pairOk f.fa f.fb = true →
       (s.tileSrc c f.ma f.ta).regFmt (kfmtCode f.fa) = true → (s.tileSrc c f.mb f.tb).regFmt (kfmtCode f.fb) = true →
       (mxCode f.fa = true → ((s.core c).getT (f.scl.toNat / 8)).fmt = fmtE8M0) →
       ((s.core c).getK f.kd.toNat).keystone = true →
       ∃ t, exec (.tmma c f) s = .next t ∧ OnlyCoreCnt s t c ∧
         ∃ sa sb, PutInFlight s t c slotT 0 (.keyMul f.kd.toNat (s.tileSrc c f.ma f.ta) (s.tileSrc c f.mb f.tb) f.fa f.fb sa sb
           (scaleByte ((s.core c).getS (f.scl.toNat / 4)) 0) (scaleByte ((s.core c).getS (f.scl.toNat / 4)) 1) f.half) ∧
         sa = stripOf ((s.core c).getT (f.scl.toNat / 8)).data (2 * (f.scl.toNat % 8)) ∧
         sb = stripOf ((s.core c).getT (f.scl.toNat / 8)).data (2 * (f.scl.toNat % 8) + 1)) ∧
     (∀ f : FTF, SlotFree s c (.tfma f) → (s.core c).enabled f.pred = true →
       (s.core c).srcCheck f.ma f.ta 1 = none → (s.core c).srcCheck f.mb f.tb 1 = none →
       (s.tileSrc c f.ma f.ta).regFmt (formatCode (if f.fp then .fp32 else .bf16) false) = true →
       (s.tileSrc c f.mb f.tb).regFmt (formatCode (if f.fp then .fp32 else .bf16) false) = true →
       ((s.core c).getK f.kd.toNat).keystone = false →
       ∃ t, exec (.tfma c f) s = .next t ∧ OnlyCoreCnt s t c ∧
         PutInFlight s t c slotT 0 (.floatMul f.kd.toNat (s.tileSrc c f.ma f.ta) (s.tileSrc c f.mb f.tb) f.fp)) ∧
     (∀ f : FTK, SlotFree s c (.kin f) → (s.core c).enabled f.pred = true →
       (s.core c).srcCheck f.ml f.src 8 = none → (∀ x ∈ s.kinTiles c f, x.regFmt fmtKS64 = true) →
       ((s.core c).getK f.kd.toNat).keystone = true →
       (∀ x ∈ s.kinTiles c f, x.addr = none → x.img.tcr.anchor = ((s.core c).getK f.kd.toNat).anchor) →
       ∃ t, exec (.kin c f) s = .next t ∧ OnlyCoreCnt s t c ∧
         PutInFlight s t c slotT 0 (.kin f.kd.toNat (s.kinTiles c f))) ∧
     (∀ f : FTR, SlotFree s c (.trd f) → (s.core c).enabled f.pred = true →
       (s.core c).srcCheck f.ml f.dst (trdTiles f.fmt) = none →
       (outFmt f.fmt = some .ks64 → ((s.core c).getK f.ks.toNat).keystone = true) →
       ∃ t, exec (.trd c f) s = .next t ∧ OnlyCore s t c ∧
         ∃ a seed dest scale, PutInFlight s t c slotT f.q (.trd f a seed dest scale) ∧
           a = ((s.core c).getS (memReg f.dst)).toNat ∧ seed = (s.core c).getS f.sx.toNat ∧
           scale = scaleByte ((s.core c).getS f.strip.toNat) 0)) ∧
  (∀ (s : State) (c : CoreAddr) (f : FTM) (g : FTF) (h : FTR),
     (SlotFree s c (.tmma f) → (s.core c).enabled f.pred = true →
       (s.core c).srcCheck f.ma f.ta 1 = none → (s.core c).srcCheck f.mb f.tb 1 = none → pairOk f.fa f.fb = true →
       (s.tileSrc c f.ma f.ta).regFmt (kfmtCode f.fa) = true → (s.tileSrc c f.mb f.tb).regFmt (kfmtCode f.fb) = true →
       (mxCode f.fa = true → ((s.core c).getT (f.scl.toNat / 8)).fmt = fmtE8M0) →
       ((s.core c).getK f.kd.toNat).keystone = false →
       ∃ t, exec (.tmma c f) s = .next t ∧ (t.core c).k = (s.core c).k ∧ (t.core c).st = .fault ∧ t.mem = s.mem ∧
         (bit (s.core c).faultReg 63 = false → (t.core c).exc = 7 ∧ fieldN (t.core c).faultReg 40 8 = 7 ∧
           fieldN (t.core c).faultReg 0 16 = (s.core c).pc.toNat)) ∧
     (SlotFree s c (.tfma g) → (s.core c).enabled g.pred = true →
       (s.core c).srcCheck g.ma g.ta 1 = none → (s.core c).srcCheck g.mb g.tb 1 = none →
       (s.tileSrc c g.ma g.ta).regFmt (formatCode (if g.fp then .fp32 else .bf16) false) = true →
       (s.tileSrc c g.mb g.tb).regFmt (formatCode (if g.fp then .fp32 else .bf16) false) = true →
       ((s.core c).getK g.kd.toNat).keystone = true →
       ∃ t, exec (.tfma c g) s = .next t ∧ (t.core c).k = (s.core c).k ∧ (t.core c).st = .fault ∧ t.mem = s.mem ∧
         (bit (s.core c).faultReg 63 = false → (t.core c).exc = 7)) ∧
     (SlotFree s c (.trd h) → (s.core c).enabled h.pred = true →
       (s.core c).srcCheck h.ml h.dst (trdTiles h.fmt) = none → outFmt h.fmt = some .ks64 →
       ((s.core c).getK h.ks.toNat).keystone = false →
       ∃ t, exec (.trd c h) s = .next t ∧ (t.core c).k = (s.core c).k ∧ (t.core c).t = (s.core c).t ∧
         (t.core c).st = .fault ∧ t.mem = s.mem ∧ (bit (s.core c).faultReg 63 = false → (t.core c).exc = 7)))

/-- A Keystone multiply or KIN that completes on good operands adds to every element of its accumulator what R58, R59 and R67 give,
on the anchor of the accumulator, sets the sticky flags of R62 and R63, and leaves the other registers; a float multiply is R74's.
Then what follows every completion comes. A read-out that completes writes the rows of R143 to R146 to its t registers, or to
core-local memory, with their format code and anchor, and the scale strip of an MX output to its t register; it leaves the
accumulators, and signals its counter (R101). Then what follows every completion comes. What follows every completion changes no
register file and no PC of any core (R94, R162). Choices of the model in it: log entries 9 and 21. -/
def Obligations.TensorEnds : Prop :=
  (∀ (s : State) (c : CoreAddr) (pipe : Fin 4) (x : Flight), (s.core c).oldestT pipe.val = some x →
     let k := s.core c
     let added := fun (u : State) (kd : Nat) (d : Nat → Delta) (n : Nat) =>
       Landed k (u.core c) x.id ∧ CoresKept s u c ∧
       u = { s with cores := u.cores, launches := u.launches } ∧
       u.core c = { k with k := (u.core c).k, flags := (u.core c).flags, flights := (u.core c).flights } ∧
       (∀ m, m ≠ kd → (u.core c).getK m = k.getK m) ∧
       (anyDelta Delta.sat d = false → (k.getK kd).count + n ≤ 2 ^ 40 → u.launches = s.launches) ∧
       ((u.core c).getK kd).count = (k.getK kd).count + n ∧ ((u.core c).getK kd).anchor = (k.getK kd).anchor ∧
       ((u.core c).getK kd).keystone = (k.getK kd).keystone ∧
       (∀ v, v < 4096 →
         (((u.core c).getK kd).elem v).n = ((k.getK kd).elem v).n + BitVec.ofInt 128 (d v).n ∧
         (((u.core c).getK kd).elem v).inv = (((k.getK kd).elem v).inv || (d v).inv) ∧
         (((u.core c).getK kd).elem v).sat =
           (((k.getK kd).elem v).sat || (d v).sat || decide (2 ^ 40 < (k.getK kd).count + n))) ∧
       (∀ b, b < 64 → bit (u.core c).flags b = (bit k.flags b ||
         (b == 0 && (anyDelta Delta.sat d || decide (2 ^ 40 < (k.getK kd).count + n))) || (b == 1 && anyDelta Delta.inv d)))
     (∀ kd a b fa fb sa sb ta tb half, x.kind = .keyMul kd a b fa fb sa sb ta tb half →
       SourceOk a (kfmtCode fa) → SourceOk b (kfmtCode fb) →
       ∃ u, exec (.tOpComplete c pipe) s = .next (u.afterOp c) ∧
         added u kd (fun v => keySum (k.getK kd).anchorInt (tmmaRow fa fb a.img.data sa ta half (v / 64))
           (tmmaRow fb fa b.img.data sb tb half (v % 64))) (tmmaK fa fb)) ∧
     (∀ kd tiles, x.kind = .kin kd tiles → (∀ y ∈ tiles, SourceOk y fmtKS64) →
       (∀ y ∈ tiles, y.addr.isSome = true → y.img.tcr.anchor = (k.getK kd).anchor) →
       ∃ u, exec (.tOpComplete c pipe) s = .next (u.afterOp c) ∧
         added u kd (fun v => ksDelta (ksBlockElem (tiles.map fun y => y.img.data) v)) 1) ∧
     (∀ kd a b fp, x.kind = .floatMul kd a b fp → SourceOk a (formatCode (if fp then .fp32 else .bf16) false) →
       SourceOk b (formatCode (if fp then .fp32 else .bf16) false) →
       ∃ u, exec (.tOpComplete c pipe) s = .next (u.afterOp c) ∧ OnlyCore s u c ∧ Landed k (u.core c) x.id ∧
         u.core c = { k with k := (u.core c).k, flights := (u.core c).flights } ∧
         (∀ m, m ≠ kd → (u.core c).getK m = k.getK m) ∧
         (u.core c).getK kd = (k.getK kd).floatMul (if fp then .fp32 else .bf16) a.img.data b.img.data)) ∧
  (∀ (s : State) (c : CoreAddr) (pipe : Fin 4) (x : Flight) (f : FTR) (a : Nat) (seed dest : Word) (scale : Byte),
     (s.core c).oldestTrd pipe.val = some x → x.kind = .trd f a seed dest scale → opLegal (.trd f) = true →
     (f.ml = true → a % 4096 = 0 ∧ a + 4096 * trdTiles f.fmt ≤ 0x200000) →
     let k := s.core c
     let rows := trdRows (k.getK f.ks.toNat) f seed dest scale
     let mx := ∃ fm, outFmt f.fmt = some (.mx fm) ∨ outFmt f.fmt = some .mxHigh
     ∃ u, exec (.readoutComplete c pipe) s = .next (u.afterOp c) ∧
       u = { s with cores := u.cores, mem := u.mem, cnt := u.cnt } ∧ CoresKept s u c ∧
       (∃ t q fl fr fa e pd, u.core c = { k with
         t := t, q := q, flags := fl, faultReg := fr, faultAddr := fa, exc := e, pend := pd, flights := (u.core c).flights }) ∧
       Landed k (u.core c) x.id ∧ (∀ b, b < 64 → b ≠ 1 → b ≠ 2 → bit (u.core c).flags b = bit k.flags b) ∧
       (if x.q.getLsbD 4 then Signalled k (u.core c) (x.q.toNat % 16) 1 else (u.core c).q = k.q) ∧
       (f.ml = false → u.mem = s.mem ∧
         (trdHalf f = false → ∀ j, j < trdTiles f.fmt →
           ((u.core c).getT (f.dst.toNat + j)).fmt = trdFmt f ∧
           ((u.core c).getT (f.dst.toNat + j)).anchor = trdAnchor (k.getK f.ks.toNat) f ∧
           ∀ r, r < 64 → tileRow ((u.core c).getT (f.dst.toNat + j)).data r = rows.getD (64 * j + r) 0) ∧
         (trdHalf f = true → ∀ r, r < 64 → tileRow ((u.core c).getT f.dst.toNat).data r =
           if trdFirst f ≤ r ∧ r < trdFirst f + 32 then rows.getD (r - trdFirst f) 0
           else tileRow (k.getT f.dst.toNat).data r)) ∧
       (f.ml = true →
         (∀ y b, b < 0x200000 → (y ≠ s.physD c ∨ b < a ∨ a + 4096 * trdTiles f.fmt ≤ b) →
           u.mem.localByte y b = s.mem.localByte y b) ∧
         (trdHalf f = false → ∀ j, j < trdTiles f.fmt →
           (u.mem.localRec (s.physD c) (a / 4096 + j)).fmt = trdFmt f ∧
           (u.mem.localRec (s.physD c) (a / 4096 + j)).anchor = trdAnchor (k.getK f.ks.toNat) f ∧
           ∀ r, r < 64 → u.mem.localRow (s.physD c) (a / 4096 + j) r = rows.getD (64 * j + r) 0) ∧
         (trdHalf f = true → (u.mem.localRec (s.physD c) (a / 4096)).fmt = trdFmt f ∧
           ∀ r, r < 64 → u.mem.localRow (s.physD c) (a / 4096) r =
             if trdFirst f ≤ r ∧ r < trdFirst f + 32 then rows.getD (r - trdFirst f) 0
             else s.mem.localRow (s.physD c) (a / 4096) r)) ∧
       (mx → ((u.core c).getT (f.strip.toNat / 8)).data = trdStrip (k.getK f.ks.toNat) f (k.getT (f.strip.toNat / 8)).data ∧
         ((u.core c).getT (f.strip.toNat / 8)).fmt = fmtE8M0) ∧
       (∀ n, (f.ml = true ∨ n < f.dst.toNat ∨ f.dst.toNat + trdTiles f.fmt ≤ n) → (mx → n ≠ f.strip.toNat / 8) →
         (u.core c).getT n = k.getT n)) ∧
  (∀ (s : State) (c d : CoreAddr), FilesKept (s.core d) ((s.afterOp c).core d) ∧ ((s.afterOp c).core d).pc = (s.core d).pc)

/-- Keystone accumulation does not depend on order or grouping (R61): the contributions of any operations, in any order, give one
accumulator; two operations give what one with the contributions of both gives; and the terms of one operation add up to the same
whatever their order and however they are divided. -/
def Obligations.KeystoneOrder : Prop :=
  (∀ (k : Acc) (l m : List ((Nat → Delta) × Nat)), l.Perm m →
     l.foldl (fun k d => k.addAll d.1 d.2) k = m.foldl (fun k d => k.addAll d.1 d.2) k) ∧
  (∀ (k : Acc) (d e : Nat → Delta) (n m : Nat),
     (k.addAll d n).addAll e m = k.addAll (fun v => (d v).add (e v)) (n + m)) ∧
  (∀ (a : Int) (x y u v : List Operand), (x.zip y).Perm (u.zip v) → keySum a x y = keySum a u v) ∧
  (∀ (a : Int) (x y u v : List Operand), x.length = y.length →
     keySum a (x ++ u) (y ++ v) = (keySum a x y).add (keySum a u v))

/-- An exact sum of WIDE elements: INV wins over SAT, SAT over numbers, and the order of the contributions does not matter (R319,
R335). -/
def Obligations.WideSums : Prop :=
  (∀ a, collAdd collInv a = collInv ∧ collAdd a collInv = collInv) ∧
  (∀ a, a ≠ collInv → collAdd collSat a = collSat ∧ collAdd a collSat = collSat) ∧
  (∀ (n m : Nat) (a b : BitVec 80), n + m ≤ 2 ^ 15 → WideOf n a → WideOf m b → WideOf (n + m) (collAdd a b) ∧
    (a ≠ collInv → a ≠ collSat → b ≠ collInv → b ≠ collSat → (collAdd a b).toInt = a.toInt + b.toInt)) ∧
  (∀ l l' : List (BitVec 80), l.Perm l' → l.length ≤ 2 ^ 15 → (∀ w ∈ l, WideOf 1 w) → l.foldl collAdd 0 = l'.foldl collAdd 0)

/-! ## Movers, control, bundles and exceptions -/

/-- MOV.PUT, MOV.FETCH and MOV.X on aligned addresses that translate, to memory outside the cores: the operation goes in flight and
one access of each tile, with the tile's record, arrives at its point of coherence in order; a write outside the named scope counts
as done once it has left it (R110, R155, R156, R224, R241). SEND, GET and MSEND on aligned addresses: the operation goes in flight
and its packets are queued at the source router in order: a WRITE_TILE of each tile with its record, or a READ_TILE, at consecutive
offsets of the fabric address, and behind them one NOTIFY pennant where RQ names a counter (R155, R157, R158, R160, R284). Choices
of the model in it: log entries 12, 13 and 14. -/
def Obligations.MoversIssue : Prop :=
  (∀ (s : State) (c : CoreAddr) (f : FMP), s.numbered → (s.core c).enabled f.pred = true → s.skips c = false →
     let k := s.core c
     let n := tileCount f.cnt
     let a := k.getS f.ra.toNat
     let b := k.getS f.rb.toNat
     let others := fun (u t : State) => t = { u with cores := t.cores, cnt := t.cnt, mem := t.mem } ∧ MemKept s t ∧
       CoreQuiet s t c
     (SlotFree s c (.movPut f) → k.moverCheck (some a) [b] n = none →
       ∀ u pas, s.translateTiles (.core c) c.p k.ctx b true n = (u, .ok pas) → PlacesOk s pas →
       ∃ t, exec (.movPut c f) s = .next t ∧ others u t ∧ (t.core c).outCount = k.outCount + 1 ∧
         MoverInFlight s t c f.q .put ((pas.filter fun pa => inScope f.sc.toNat c (placeOf pa)).length) f.sc ∧
         Arrived s t ((pas.zip (s.localTiles c a n)).map fun e => (e.1 / 4096, .whole e.2 0 0))) ∧
     (SlotFree s c (.movFetch f) → k.moverCheck (some a) [b] n = none →
       ∀ u pas, s.translateTiles (.core c) c.p k.ctx b false n = (u, .ok pas) → PlacesOk s pas →
       ∃ t, exec (.movFetch c f) s = .next t ∧ others u t ∧ (t.core c).outCount = k.outCount ∧
         MoverInFlight s t c f.q .fetch n f.sc ∧ Arrived s t (pas.map fun pa => (pa / 4096, .read none))) ∧
     (SlotFree s c (.movX f) → k.moverCheck none [a, b] n = none →
       ∀ u v pas das, s.translateTiles (.core c) c.p k.ctx a false n = (u, .ok pas) →
       u.translateTiles (.core c) c.p k.ctx b true n = (v, .ok das) → PlacesOk s pas →
       ∃ t, exec (.movX c f) s = .next t ∧ others v t ∧ (t.core c).outCount = k.outCount + 1 ∧
         MoverInFlight s t c f.q .x n f.sc ∧ Arrived s t (pas.map fun pa => (pa / 4096, .read none)))) ∧
  (∀ (s : State) (c : CoreAddr) (f : FMF) (g : FMC), s.skips c = false →
     let k := s.core c
     let seq := fun (i : Nat) => BitVec.ofNat 16 (k.sendCount % 256 * 256 + i % 256)
     let pkt := fun (typ : BitVec 4) (tc : BitVec 2) (pen : Bool) (fa : Word) (i : Nat) (pl : Payload) =>
       { blankPacket with
         typ := typ, tc := tc, pen := pen, dstEp := faEp fa, offset := faOff fa + BitVec.ofNat 40 (4096 * i),
         rgen := s.gen (coreIdx c), seq := seq i, payload := pl }
     let note := fun (tc : BitVec 2) (fa : Word) (rq : BitVec 5) (core : Word) (n : Nat) =>
       if rq.getLsbD 4 then
         [{ blankPacket with
           typ := 5, tc := tc, pen := true, dstEp := faEp fa, rgen := s.gen (coreIdx c), seq := seq (n - 1), rq := rq,
           core := field core 0 9 }]
       else []
     let sends := fun (t : State) => t = { s with cores := t.cores, cnt := t.cnt, fab := t.fab } ∧ CoreQuiet s t c ∧
       (t.core c).sendCount = k.sendCount + 1
     (SlotFree s c (.send f) → k.enabled f.pred = true → noteBad f.rq (k.getS (f.rb.toNat + 1)) = false →
       k.moverCheck (some (k.getS f.ra.toNat)) [k.getS f.rb.toNat] (tileCount f.cnt) = none →
       ∃ t, exec (.send c f) s = .next t ∧ sends t ∧ MoverInFlight s t c f.q .send (tileCount f.cnt) 4 ∧
         Queued s t (((s.localTiles c (k.getS f.ra.toNat) (tileCount f.cnt)).zipIdx.map fun e =>
             pkt 1 f.tc f.pen (k.getS f.rb.toNat) e.2 (.tile e.1)) ++
           note f.tc (k.getS f.rb.toNat) f.rq (k.getS (f.rb.toNat + 1)) (tileCount f.cnt))) ∧
     (SlotFree s c (.get f) → k.enabled f.pred = true →
       k.moverCheck (some (k.getS f.ra.toNat)) [k.getS f.rb.toNat] (tileCount f.cnt) = none →
       ∃ t, exec (.get c f) s = .next t ∧ sends t ∧ MoverInFlight s t c f.q .get (tileCount f.cnt) 4 ∧
         Queued s t ((List.range (tileCount f.cnt)).map fun i => pkt 2 f.tc f.pen (k.getS f.rb.toNat) i .none)) ∧
     (SlotFree s c (.msend g) → k.enabled g.pred = true → noteBad g.rq (k.getS (g.rb.toNat + 2)) = false →
       k.moverCheck (some (k.getS g.ra.toNat)) [k.getS g.rb.toNat] (tileCount g.cnt) = none →
       s.mcastBad k.ctx g.tc (faEp (k.getS g.rb.toNat)) g.mode (k.getS (g.rb.toNat + 1)) = false →
       mcastMembers s.extents
         (coordOf (eCoord (s.ept (epDie (faEp (k.getS g.rb.toNat))) s.bank (faEp (k.getS g.rb.toNat)).toNat))) g.mode
         (k.getS (g.rb.toNat + 1)) ≠ [] →
       ∃ t, exec (.msend c g) s = .next t ∧ sends t ∧ MoverInFlight s t c g.q .msend (tileCount g.cnt) 4 ∧
         Queued s t ((((s.localTiles c (k.getS g.ra.toNat) (tileCount g.cnt)).zipIdx.map fun e =>
             pkt 1 g.tc false (k.getS g.rb.toNat) e.2 (.tile e.1)) ++
           note g.tc (k.getS g.rb.toNat) g.rq (k.getS (g.rb.toNat + 2)) (tileCount g.cnt)).map fun p =>
             { p with mc := true, mask := k.getS (g.rb.toNat + 1), coll := if g.mode then 1 else 0 })))

/-- WAIT takes N from its counter where that holds N or more, and holds the bundle otherwise (R99); SIGNAL adds N, and past 65,535
takes TOKEN_OVERFLOW (R98, R102). BR makes TARGET the next bundle; BDEC takes 1 from s[RA] and branches unless that gives 0 (R127,
Table 4.18). A predicate whose bit 0 is 0 leaves the next bundle alone. KCLR clears the accumulators of its mask in the mode and on
the anchor that it names, and no other (R52, R56, R161); with a hardware anchor and a scale-maximum register that has seen NaN or no
scale it takes ANCHOR and clears nothing (R57). RDFTC reads the fabric time counter and RDQ a token counter into s[RD]. A slot that
names a predicate for the slot as a whole executes only if bit 0 of it is 1 (R82, R123): otherwise the operation issues and has no
effect. A core that may not issue does nothing. Choices of the model in it: log entries 11 and 12. -/
def Obligations.ControlOperations : Prop :=
  (∀ (s : State) (c : CoreAddr) (f : FCW), (s.core c).enabled f.pred = true →
     let k := s.core c
     (SlotFree s c (.wait f) → f.n.toNat ≤ (k.getQ f.q.toNat).toNat → ∃ t, exec (.wait c f) s = .next t ∧ OnlyCore s t c ∧
       t.core c = { k with q := (t.core c).q, waitBeats := 0, fill := false } ∧
       (∀ i, i ≠ f.q.toNat → (t.core c).getQ i = k.getQ i) ∧
       ((t.core c).getQ f.q.toNat).toNat = (k.getQ f.q.toNat).toNat - f.n.toNat) ∧
     (SlotFree s c (.wait f) → (k.getQ f.q.toNat).toNat < f.n.toNat → exec (.wait c f) s = .next s) ∧
     (SlotFree s c (.signal f) → ∃ t, exec (.signal c f) s = .next t ∧ OnlyCore s t c ∧
       (t.core c).s = k.s ∧ (t.core c).pc = k.pc ∧ (t.core c).flights = k.flights ∧ Signalled k (t.core c) f.q.toNat f.n.toNat)) ∧
  (∀ (s : State) (c : CoreAddr) (f : FCB),
     let k := s.core c
     (SlotFree s c (.br f) → ∃ t, exec (.br c f) s = .next t ∧ OnlyCore s t c ∧
       t.core c = { k with pc := if k.enabled f.pred then f.target else k.pc, waitBeats := 0, fill := false }) ∧
     (SlotFree s c (.bdec f) → ∃ t, exec (.bdec c f) s = .next t ∧ OnlyCore s t c ∧
       t.core c = { k with pc := (t.core c).pc, s := (t.core c).s, waitBeats := 0, fill := false } ∧
       (∀ n, n ≠ f.ra.toNat → (t.core c).getS n = k.getS n) ∧
       (k.enabled f.pred = false → (t.core c).getS f.ra.toNat = k.getS f.ra.toNat ∧ (t.core c).pc = k.pc) ∧
       (k.enabled f.pred = true → f.ra ≠ 0 → (t.core c).getS f.ra.toNat = k.getS f.ra.toNat - 1 ∧
         (t.core c).pc = if k.getS f.ra.toNat = 1 then k.pc else f.target) ∧
       (k.enabled f.pred = true → f.ra = 0 → (t.core c).getS 0 = 0 ∧ (t.core c).pc = k.pc))) ∧
  (∀ (s : State) (c : CoreAddr) (f : FCK), SlotFree s c (.kclr f) → (s.core c).enabled f.pred = true →
     let k := s.core c
     let bad := f.mode = true ∧ f.hw = true ∧ (k.sma.getLsbD 9 = true ∨ k.smb.getLsbD 9 = true ∨ k.sma.getLsbD 8 = false ∨
       k.smb.getLsbD 8 = false)
     (¬ bad → ∃ t, exec (.kclr c f) s = .next t ∧ OnlyCore s t c ∧
       t.core c = { k with k := (t.core c).k, waitBeats := 0, fill := false } ∧
       (∀ n, n < 8 → f.kmask.getLsbD n = false → (t.core c).getK n = k.getK n) ∧
       ∀ n, n < 8 → f.kmask.getLsbD n = true →
         ((t.core c).getK n).keystone = f.mode ∧ ((t.core c).getK n).count = 0 ∧
         (∀ v, ((t.core c).getK n).elem v = ⟨0, false, false⟩) ∧
         (f.mode = true → f.hw = false → ((t.core c).getK n).anchor.toInt = f.anch.toInt) ∧
         (f.mode = true → f.hw = true → ((t.core c).getK n).anchor.toInt =
           ((k.sma.toNat % 256 : Nat) : Int) + ((k.smb.toNat % 256 : Nat) : Int) - 254 + (kfmt f.fa).1.bound + (kfmt f.fb).1.bound)) ∧
     (bad → ∃ t, exec (.kclr c f) s = .next t ∧ (t.core c).k = k.k ∧ (t.core c).st = .fault ∧
       (bit k.faultReg 63 = false → (t.core c).exc = 8))) ∧
  (∀ (s : State) (c : CoreAddr) (f : FCS),
     ScalarOk s c f.pred f.rd (.rdftc f) (.rdftc c f) s.ftc ∧
     ScalarOk s c f.pred f.rd (.rdq f) (.rdq c f) (((s.core c).getQ f.q.toNat).setWidth 64)) ∧
  (∀ (i : Instr) (c : CoreAddr) (slot : BitVec 3) (op : SlotOp) (s : State), slotCommand i = some (c, slot, op) →
     ((s.core c).mayIssue = false → exec i s = .next s) ∧
     ((s.core c).mayIssue = true → opLegal op = true → elementwise op = false → (s.core c).enabled (opPred op) = false →
       (∀ f, op = .vsmw f → (s.core c).vsmwOk f = true ∧ ∀ x ∈ (s.core c).flights, .s f.rs.toNat ∉ x.writes) →
       exec i s = .next (s.issued c)))

/-- LDVOL, LDACQ and STREL on an aligned address go in flight and change no register: a load with F = 1 queues a READ8, a load from
memory outside the cores arrives as an 8-byte read at its point of coherence; after LDACQ no bundle issues (R162 to R164). A
misaligned address takes a precise ALIGN exception. The write of a STREL leaves only once every earlier operation of the core has
left flight and every write of the core to memory of its scope has been performed; with F = 1 it then leaves as one WRITE8 to its
fabric address (R162, R164, R241). Choices of the model in it: log entries 9 and 12. -/
def Obligations.OrderedAccess : Prop :=
  (∀ (s : State) (c : CoreAddr) (f : FCA), (s.core c).enabled f.pred = true →
     let k := s.core c
     let a := k.getS f.ra.toNat
     (∀ i op acq, ((i, op, acq) = (.ldvol c f, .ldvol f, false) ∨ (i, op, acq) = (.ldacq c f, .ldacq f, true)) → SlotFree s c op →
       (a.toNat % 8 ≠ 0 → exec i s = .next (s.precise c slotC xcAlign a)) ∧
       (a.toNat % 8 = 0 → f.f = true → ∃ t, exec i s = .next t ∧ t = { s with cores := t.cores, fab := t.fab } ∧
         CoresKept s t c ∧ PutInFlight s t c slotC 0 (.load f.rd.toNat a acq none) ∧ (acq = true → (t.core c).mayIssue = false) ∧
         ∃ p, Queued s t [p] ∧ p.typ = 4 ∧ p.dstEp = faEp a ∧ p.offset = faOff a) ∧
       (a.toNat % 8 = 0 → f.f = false → ∀ pa, (s.translate c.p k.ctx a false).pa = .ok pa → PlacesOk s [pa] →
         ∃ t, exec i s = .next t ∧
           t = { (s.translate c.p k.ctx a false).s with cores := t.cores, mem := t.mem } ∧ MemKept s t ∧
           CoresKept s t c ∧ PutInFlight s t c slotC 0 (.load f.rd.toNat a acq none) ∧
           (acq = true → (t.core c).mayIssue = false) ∧ Arrived s t [(pa / 4096, .read8 (pa % 4096))])) ∧
     (SlotFree s c (.strel f) → a.toNat % 8 ≠ 0 → exec (.strel c f) s = .next (s.precise c slotC xcAlign a)) ∧
     (SlotFree s c (.strel f) → a.toNat % 8 = 0 → s.skips c = false →
       ∃ u, exec (.strel c f) s = .next ((u.pump c).issued c) ∧ u = { s with cores := u.cores } ∧ CoresKept s u c ∧
         FilesKept k (u.core c) ∧ (u.core c).pc = k.pc ∧ (u.core c).outCount = k.outCount + 1 ∧
         ∃ x, (u.core c).flights = k.flights ++ [x] ∧ x.id = k.nextId ∧ x.q = f.q ∧
           x.kind = .strel a f.f f.sc (k.getS f.rd.toNat) false false)) ∧
  (∀ (s : State) (c : CoreAddr),
     (∀ x, (s.core c).flights.head? = some x → (∀ a f sc d, x.kind ≠ .strel a f sc d false false) → s.pump c = s) ∧
     ((s.core c).flights = [] → s.pump c = s) ∧
     (∀ x a f sc d, (s.core c).flights.head? = some x → x.kind = .strel a f sc d false false →
       (s.performed c sc.toNat = false → s.pump c = s) ∧
       (s.performed c sc.toNat = true → f = true → ∃ t p, s.pump c = t ∧ t = { s with cores := t.cores, fab := t.fab } ∧
         CoresKept s t c ∧ FilesKept (s.core c) (t.core c) ∧ Queued s t [p] ∧ p.typ = 3 ∧ p.dstEp = faEp a ∧
         p.offset = faOff a ∧ p.data8 = d ∧
         (t.core c).flights.length = (s.core c).flights.length)))

/-- The end of a mover operation or STREL whose every part is done: it leaves flight, its ledger bit is set and its counter
signalled, unless a part of it was refused (R101, R156, R168, R189). LOAD_RETURN gives the oldest load that has its value to s[RD]
and ends it; s0 stays zero and a refused load writes nothing (R80, R163, R168). Choices of the model in it: log entry 1. -/
def Obligations.OperationsEnd : Prop :=
  (∀ (s : State) (c : CoreAddr) (x : Flight),
     (∃ kd sc, x.kind = .mover kd 0 sc) ∨ (∃ a f sc d b, x.kind = .strel a f sc d b true) →
     (s.core c).flights.find? (fun y => y.id == x.id) = some x →
     ∃ u, ((∃ kd sc, x.kind = .mover kd 0 sc) → exec (.moverComplete c x.id) s = .next (u.afterOp c)) ∧
       ((∃ a f sc d b, x.kind = .strel a f sc d b true) → exec (.strelVisible c x.id) s = .next (u.afterOp c)) ∧
       u = { s with cores := u.cores, stores := u.stores } ∧ CoresKept s u c ∧ (∀ d, d ≠ c → u.store d = s.store d) ∧
       Landed (s.core c) (u.core c) x.id ∧ (u.core c).s = (s.core c).s ∧ (u.core c).v = (s.core c).v ∧
       (u.core c).t = (s.core c).t ∧ (u.core c).k = (s.core c).k ∧ (u.core c).p = (s.core c).p ∧
       (x.failed = true → (u.core c).q = (s.core c).q ∧ u.stores = s.stores) ∧
       (x.failed = false →
         (if x.q.getLsbD 4 then Signalled (s.core c) (u.core c) (x.q.toNat % 16) 1 else (u.core c).q = (s.core c).q) ∧
         ∀ i, i < 1024 → (u.store c).ledger.getLsbD i = ((s.store c).ledger.getLsbD i || x.outIdx == some i))) ∧
  (∀ (s : State) (c : CoreAddr) (x : Flight) (rd : Nat) (a : Word) (acq : Bool) (v : Word),
     (s.core c).loadReady = some x → x.kind = .load rd a acq (some v) →
     ∃ u, exec (.loadReturn c) s = .next (u.afterOp c) ∧ OnlyCore s u c ∧ Landed (s.core c) (u.core c) x.id ∧
       u.core c = { s.core c with s := (u.core c).s, flights := (u.core c).flights } ∧
       (∀ n, n ≠ rd → (u.core c).getS n = (s.core c).getS n) ∧
       (u.core c).getS rd = if rd = 0 then 0 else if x.failed then (s.core c).getS rd else v)

/-- A deferred exception: once the operations of the core have drained, the core enters FAULT with PC at the first bundle not
issued, and the record of the first exception; until then it issues nothing (R168, R170). An exception at issue is precise: no slot
takes effect, PC keeps the bundle's index, the core is in FAULT, and the first exception is recorded with its code, its slot and the
index (R131, R167, R170, Tables 4.19 to 4.21). Here: an operation that is illegal by its fields. Choices of the model in it: log
entries 1, 10 and 12. -/
def Obligations.Exceptions : Prop :=
  (∀ (s : State) (c : CoreAddr), (s.core c).st = .run → (s.core c).pend.isSome = true →
     exec (.bundleIssue c) s = (if (s.core c).beatOpen then .next (s.setCore c (s.core c).beat) else .next s) ∧
     ((s.core c).flights ≠ [] → exec (.coreFaultEntry c) s = .next s) ∧
     ((s.core c).flights = [] → ∃ t, exec (.coreFaultEntry c) s = .next t ∧ (t.core c).st = .fault ∧ (t.core c).pend = none ∧
       FilesKept (s.core c) (t.core c) ∧ (t.core c).pc = (s.core c).pc ∧ (t.core c).faultReg = (s.core c).faultReg ∧
       (t.core c).faultAddr = (s.core c).faultAddr ∧ t.mem = s.mem ∧ t.fab = s.fab ∧ t.stores = s.stores)) ∧
  (∀ (i : Instr) (c : CoreAddr) (slot : BitVec 3) (op : SlotOp) (s : State), slotCommand i = some (c, slot, op) →
     (s.core c).mayIssue = true → opLegal op = false →
     ∃ t, exec i s = .next t ∧ FilesKept (s.core c) (t.core c) ∧ (t.core c).pc = (s.core c).pc ∧ (t.core c).st = .fault ∧
       t.mem = s.mem ∧ t.fab = s.fab ∧ t.stores = s.stores ∧
       (bit (s.core c).faultReg 63 = true → (t.core c).faultReg = bumpHold (s.core c).faultReg 32 8 ∧
         (t.core c).faultAddr = (s.core c).faultAddr ∧ (t.core c).exc = (s.core c).exc) ∧
       (bit (s.core c).faultReg 63 = false → (t.core c).exc = 1 ∧ bit (t.core c).faultReg 63 = true ∧
         bit (t.core c).faultReg 62 = false ∧ fieldN (t.core c).faultReg 59 3 = 7 ∧ fieldN (t.core c).faultReg 48 8 = 0x0C ∧
         fieldN (t.core c).faultReg 40 8 = 1 ∧ fieldN (t.core c).faultReg 32 8 = 0 ∧
         fieldN (t.core c).faultReg 0 16 = (s.core c).pc.toNat ∧ (t.core c).faultAddr = 0))

/-- One beat of a core: it counts in BEATCNT; a bundle outside the code region takes CODE_BOUND, an illegal one ILLEGAL_BUNDLE, one
whose SPAN bit does not fit its place SPAN_MARK; an empty legal bundle issues and the next is at PC + 1 (R105, R127, R128, R130 to
R132). The worked example of the manual: the 256 bits of its bundle decode to MOV.PUT s10 to s11 of 8 tiles, q4, cluster scope, and
WAIT q3, 4. The intervals of a core: each 1,000 ticks the beat limiter starts again with the LIMIT then in force (R105); each 10,000
ticks RATE takes a tenth of the beats, at most 4,095, and BELOW_FLOOR and its count are set if they are fewer than FLOOR asks
(R108); the pipes of a core in BARRIER without queued T operations start load fill (R196). Choices of the model in it: log entries 1
and 15. -/
def Obligations.BundlesAndIntervals : Prop :=
  (∀ (s : State) (c : CoreAddr), (s.core c).mayIssue = true → (s.core c).beatOpen = true →
     let k := s.core c
     let beaten := s.setCore c { k with beatCnt := k.beatCnt + 1, limBeats := k.limBeats + 1 }
     (k.bundles ≤ k.pc.toNat → exec (.bundleIssue c) s = .next (beaten.precise c 7 2 (k.pc.setWidth 64))) ∧
     (k.pc.toNat < k.bundles → decodeBundle (s.fetch c k.pc) = none → exec (.bundleIssue c) s = .next (beaten.precise c 7 1 0)) ∧
     (k.pc.toNat < k.bundles → ∀ b, decodeBundle (s.fetch c k.pc) = some b →
       (b.ops = [] → b.span ≠ k.atEntry → exec (.bundleIssue c) s = .next (beaten.precise c 7 3 0)) ∧
       (b.ops = [] → b.span = k.atEntry → ∃ t, exec (.bundleIssue c) s = .next t ∧ OnlyCore s t c ∧
         t.core c = { k with
           beatCnt := k.beatCnt + 1, limBeats := k.limBeats + 1, pc := k.pc + 1, atEntry := false, waitBeats := 0
           fill := false }))) ∧
  (decodeBundle (BitVec.ofNat 256
     (0x30 + 0x1420000000000000 * 2 ^ 128 + 0x0418020000042961 * 2 ^ 192)) =
   some ⟨false, false, [(4, .movPut ⟨0, 10, 11, 8, 0b10100, 1⟩), (5, .wait ⟨0, 3, 4⟩)]⟩) ∧
  (∀ (s : State) (c : CoreAddr),
     let k := s.core c
     let n := (k.beatCnt - k.measBase).toNat
     let live := k.st = .run ∨ k.st = .barrier
     (1000 ≤ (s.ftc - k.limAt).toNat → ∃ t, exec (.beatLimitInterval c) s = .next t ∧ OnlyCore s t c ∧
       t.core c = { k with limBeats := 0, limInForce := field k.beatLim 0 12, limAt := s.ftc }) ∧
     (10000 ≤ (s.ftc - k.measAt).toNat → live → k.measOk = true → ∃ t, exec (.floorMeasure c) s = .next t ∧ OnlyCore s t c ∧
       t.core c = { k with
         rated := true, measBase := k.beatCnt, measAt := s.ftc, rate := (t.core c).rate, flags := (t.core c).flags } ∧
       fieldN (t.core c).rate 0 12 = min (n / 10) 4095 ∧
       (∀ b, b < 64 → bit (t.core c).flags b = (bit k.flags b || (b == 3 && decide (n < fieldN k.floor 0 12 * 10)))) ∧
       (fieldN (t.core c).rate 32 16 =
         if n < fieldN k.floor 0 12 * 10 then min (fieldN k.rate 32 16 + 1) 0xFFFF else fieldN k.rate 32 16)) ∧
     (10000 ≤ (s.ftc - k.measAt).toNat → ¬ live → ∃ t, exec (.floorMeasure c) s = .next t ∧ OnlyCore s t c ∧
       t.core c = { k with measBase := k.beatCnt, measAt := s.ftc, measOk := false }) ∧
     (k.st = .barrier → k.idlePipes = true → ∃ t, exec (.loadFillStart c) s = .next t ∧ OnlyCore s t c ∧
       t.core c = { k with fill := true }) ∧
     (k.idlePipes = false → exec (.loadFillStart c) s = .next s))

/-! ## Spans -/

/-- SPAN.BAR waits for every earlier operation of the core (R115); then the core is in BARRIER, its record of the next span is
valid, names NEXT and holds the s, p and q files, ledger and tally start empty, and its arrival is on the barrier network with the
FTC as its stamp (R84, R165, R174, R186, R191). An arrival of a member is held once; with the last one that the barrier awaits, D
becomes max (D, a_max + GUARD - S), those received after S + D count in LATE_ARR, and an increase is an overrun: it counts, and both overrun registers latch it with the cause of
the overrunning core (R174 to R178, R181, R182, R201). A core releases its barrier exactly when the group holds every arrival and
the FTC reads S + D (R175): from the launch barrier it enters span 0 with SPAN 0 (R178, R135), from another the next span with SPAN
+ 1 (R135), from a STOP it is STOPPED (R136); a span starts with cleared v, t and k files and scale registers, and keeps s, p and q
(R84). Choices of the model in it: log entries 1 and 12. -/
def Obligations.SpansAndBarriers : Prop :=
  (∀ (s : State) (c : CoreAddr) (f : FCB), SlotFree s c (.spanBar f) →
     let k := s.core c
     (k.flights ≠ [] → exec (.spanBar c f) s = .next s) ∧
     (k.flights = [] → k.enabled f.pred = true → ∃ t, exec (.spanBar c f) s = .next t ∧
       t = { s with cores := t.cores, stores := t.stores, regs := t.regs, barNet := t.barNet, out := t.out } ∧
       CoresKept s t c ∧ FilesKept k (t.core c) ∧ (t.core c).st = .barrier ∧ (t.core c).next = f.target ∧
       (t.core c).stop = f.stop ∧ (t.core c).pc = k.pc ∧
       (∀ d, d ≠ c → t.store d = s.store d) ∧ (t.store c).ledger = 0 ∧ (t.store c).tally = [] ∧
       (∃ r, (r = (t.store c).rec0 ∨ r = (t.store c).rec1) ∧ r = ⟨BitVec.ofNat 32 (k.spanIdx + 1), f.target, s.ftc, k.s, k.p, k.q, true⟩) ∧
       (∃ a, t.barNet = s.barNet ++ [a] ∧ a.core = c ∧ a.span = k.spanIdx ∧ a.launch = false ∧ a.stamp = s.ftc) ∧
       RegsKept s t [rSgStat k.group])) ∧
  (∀ (s : State) (slot : Fin 64) (a : Arrival), s.arrivalComes slot.val a = true →
     (s.group slot.val).member a.pkg.toNat a.core = true →
     (∀ b ∈ (s.group slot.val).arrived (arrivalBarrier a), ¬ (b.pkg = a.pkg ∧ b.core = a.core)) →
     let g := s.group slot.val
     let n := arrivalBarrier a
     let l := g.arrived n ++ [a]
     let last := n = g.full ∧ ∀ m ∈ g.members, ∃ b ∈ l, b.pkg.toNat = m.1 ∧ b.core = m.2
     let d0 := s.fld (rSgSlip slot.val) 0 48
     let d := max d0 (maxStamp l + s.fld (rSgCfg slot.val) 0 32 - g.start n)
     ∃ t, exec (.barrierArrival slot a) s = .next t ∧
       t = { s with groups := t.groups, regs := t.regs, barNet := t.barNet, launches := t.launches } ∧
       RegsKept s t [rSgStat slot.val, rSgSlip slot.val, rSgWho slot.val, rSgWhat slot.val] ∧
       (∀ h, h ≠ slot.val → t.group h = s.group h) ∧
       t.group slot.val = { g with held := g.held ++ [(n, a, s.ftc.toNat)], full := (t.group slot.val).full } ∧
       (¬ last → (t.group slot.val).full = g.full ∧ t.fld (rSgSlip slot.val) 0 48 = d0 ∧
         t.fld (rSgStat slot.val) 32 16 = s.fld (rSgStat slot.val) 32 16 ∧ t.fld (rSgStat slot.val) 24 8 = s.fld (rSgStat slot.val) 24 8) ∧
       (last → t.fld (rSgStat slot.val) 24 8 =
         min (s.fld (rSgStat slot.val) 24 8 + (t.group slot.val).lateArrivals n d) 0xFF) ∧
       (last → (t.group slot.val).full = n + 1 ∧ t.fld (rSgSlip slot.val) 0 48 = d % 2 ^ 48 ∧
         (d = d0 → t.fld (rSgStat slot.val) 32 16 = s.fld (rSgStat slot.val) 32 16) ∧
         (d0 < d →
           t.fld (rSgStat slot.val) 32 16 = min (s.fld (rSgStat slot.val) 32 16 + 1) 0xFFFF ∧
           t.fld (rSgWhat slot.val) 48 16 = t.fld (rSgStat slot.val) 32 16 ∧
           t.fld (rSgWho slot.val) 48 16 = t.fld (rSgStat slot.val) 32 16 ∧
           t.fld (rSgWhat slot.val) 32 16 = (if n = 0 then 0xFFFF else (n - 1) % 2 ^ 16) ∧
           t.fld (rSgWhat slot.val) 0 32 = min (d - d0) 0xFFFFFFFF ∧
           ∃ b ∈ l, (∀ y ∈ l, y.stamp.toNat ≤ b.stamp.toNat) ∧ t.fld (rSgWho slot.val) 23 13 = b.pkg.toNat ∧
             t.fld (rSgWho slot.val) 36 9 = (packCore b.core).toNat ∧
             t.fld (rSgWho slot.val) 45 3 = (if n = 0 then 4 else if b.replayed then 3 else if b.throttled then 2 else 1)))) ∧
  (∀ (s : State) (c : CoreAddr),
     let k := s.core c
     let g := s.group k.group
     let clear := fun (m : Core) => (∀ n, m.getV n = 0) ∧ (∀ n, m.getT n = ⟨0, fmtUntyped, noAnchor⟩) ∧
       (∀ n, m.getK n = Acc.zero) ∧ m.sma = 0 ∧ m.smb = 0 ∧ m.s = k.s ∧ m.p = k.p ∧ m.q = k.q ∧ m.st = .run ∧
       m.pc = k.next ∧ m.atEntry = true
     let ready := k.st = .barrier ∧ s.rbit (rSgCfg k.group) 63 = true ∧ k.launch = some (g.ring, g.idx) ∧ k.barrierNo < g.full ∧
       g.start k.barrierNo + s.fld (rSgSlip k.group) 0 48 ≤ s.ftc.toNat
     (¬ ready → exec (.barrierRelease c) s = .next s) ∧
     (ready → k.atLaunch = true → ∃ t, exec (.barrierRelease c) s = .next t ∧ OnlyCore s t c ∧ clear (t.core c) ∧
       (t.core c).span = 0 ∧ (t.core c).spanIdx = 0) ∧
     (ready → k.atLaunch = false → k.stop = false → ∃ t, exec (.barrierRelease c) s = .next t ∧
       t = { s with cores := t.cores, regs := t.regs } ∧ CoresKept s t c ∧ RegsKept s t [rSgStat k.group] ∧ clear (t.core c) ∧
       (t.core c).span = k.span + 1 ∧ (t.core c).spanIdx = k.spanIdx + 1) ∧
     (ready → k.atLaunch = false → k.stop = true → ∃ t, exec (.barrierRelease c) s = .next t ∧ (t.core c).st = .stopped ∧
       FilesKept k (t.core c) ∧ t.mem = s.mem ∧ t.stores = s.stores))

/-- A hardware error of a mapped core, or its wait limit in RUN, fences it for failure: it holds no operation and runs no more; the
cluster's spare takes its place, or it is unmapped where there is none; the failed physical core is out of service (R19, R20, R183,
R453). The wait limit acts once per core per span, and not before S + D + LIMIT with LIMIT the larger of LIMIT_CORE and four budgets
(R183); the package's limit fences every local core of the group (R184). A spare that awaits its replay, and whose record enters a
span that has been released: it runs the span from the record's entry with the record's s and p files and each counter with its
tally, held at 65,535, and a cleared rest (R84, R192, R193). In a replay, an outbound operation whose ledger bit is set is not
executed again: it is numbered and its counter is signalled, and nothing leaves the core (R193). Choices of the model in it: log
entries 1, 12 and 41. -/
def Obligations.FailureAndReplay : Prop :=
  (∀ (s : State) (c : CoreAddr) (x : Nat) (i : Instr), s.groupsOk → s.phys c = some x →
     i = .coreHwError c ∨ (i = .coreWaitLimit c ∧ s.overLimit c = true) → ∃ t, exec i s = .next t ∧
       (t.core c).st ≠ .run ∧ (t.core c).st ≠ .barrier ∧ (t.core c).flights = [] ∧ t.mem = s.mem ∧ t.stores = s.stores ∧
       (∀ d, d ≠ c → FilesKept (s.core d) (t.core d)) ∧
       let m := s.reg (rCmap c.p c.c.val)
       let m' := t.reg (rCmap c.p c.c.val)
       bit m' (48 + fieldN m (4 * c.k.val) 4) = true ∧
       (fieldN m 44 4 ≠ 15 → fieldN m' (4 * c.k.val) 4 = fieldN m 44 4 ∧ fieldN m' 44 4 = 15 ∧ bit m' (32 + c.k.val) = false) ∧
       (fieldN m 44 4 = 15 → bit m' (32 + c.k.val) = true ∧ t.phys c = none) ∧
       (∀ j : Fin 8, j ≠ c.k → fieldN m' (4 * j.val) 4 = fieldN m (4 * j.val) 4 ∧ bit m' (32 + j.val) = bit m (32 + j.val))) ∧
  (∀ (s : State) (c : CoreAddr) (slot : Fin 64),
     let k := s.core c
     let g := s.group k.group
     let h := s.group slot.val
     ((k.limitUsed = true ∨ k.st ≠ .run ∨ s.ftc.toNat < g.start (k.spanIdx + 1) + s.fld (rSgSlip k.group) 0 48 +
         max g.limitCore (4 * (g.spans.getD k.spanIdx ⟨0, 0, 0⟩).budget)) → exec (.coreWaitLimit c) s = .next s) ∧
     (s.ftc.toNat < h.start h.full + s.fld (rSgSlip slot.val) 0 48 + 2 * h.limit h.full + 10000000 →
       exec (.packageWaitLimit slot) s = .next s) ∧
     (s.rbit (rSgCfg slot.val) 63 = true → h.full ≤ h.spans.length →
       h.start h.full + s.fld (rSgSlip slot.val) 0 48 + 2 * h.limit h.full + 10000000 ≤ s.ftc.toNat →
       ∃ t, exec (.packageWaitLimit slot) s = .next t ∧ t.mem = s.mem ∧ t.stores = s.stores ∧ t.fab = s.fab ∧
         (∀ m ∈ h.members, m.1 = h.me → (t.core m.2).st ≠ .run ∧ (t.core m.2).st ≠ .barrier) ∧
         (∀ d, FilesKept (s.core d) (t.core d)) ∧
         (∀ d, (h.me, d) ∉ h.members → (t.core d).st = (s.core d).st))) ∧
  (∀ (s u : State) (c : CoreAddr) (l : Launch) (r : SpanRec) (i : Nat) (e : CoreEnt),
     (s.core c).st = .stopped → (s.core c).failFence = true → s.launchOf c = some l → (s.store c).newest = some r →
     l.entryOf c = some (i, e) → s.loadCode l c i e = (u, none) → u.released (s.core c).group r.span.toNat = true →
     r.span.toNat ≠ (s.group (s.core c).group).spans.length →
     ∃ t, exec (.spareReplay c) s = .next t ∧ OnlyCore u t c ∧ (t.core c).st = .run ∧ (t.core c).pc = r.next ∧
       (t.core c).replaying = true ∧ (t.core c).failFence = false ∧ (t.core c).atEntry = true ∧
       (r.span.toNat = (s.core c).spanIdx → (t.core c).limitUsed = (s.core c).limitUsed) ∧
       (t.core c).s = r.s ∧ (t.core c).p = r.p ∧ (∀ n, (t.core c).getV n = 0) ∧ (∀ n, (t.core c).getK n = Acc.zero) ∧
       (∀ n, n < 16 → ((t.core c).getQ n).toNat =
         min ((mget (fun _ => 0) r.q n).toNat + (mget (fun _ => 0) (s.store c).tally n).toNat) 65535) ∧
       (t.core c).code = setField (setField 0 8 8 e.size) 0 5 e.base) ∧
  (∀ (s : State) (c : CoreAddr) (f : FMP) (g : FCA), (s.core c).replaying = true → (s.core c).outCount < 1024 →
     (s.store c).ledger.getLsbD (s.core c).outCount = true →
     let k := s.core c
     let skipped := fun (t : State) (q : BitVec 5) => OnlyCore s t c ∧ (t.core c).outCount = k.outCount + 1 ∧
       (t.core c).flights = k.flights ∧
       (if q.getLsbD 4 then Signalled k (t.core c) (q.toNat % 16) 1 else (t.core c).q = k.q)
     (SlotFree s c (.movPut f) → k.enabled f.pred = true →
       k.moverCheck (some (k.getS f.ra.toNat)) [k.getS f.rb.toNat] (tileCount f.cnt) = none →
       ∃ t, exec (.movPut c f) s = .next t ∧ skipped t f.q) ∧
     (SlotFree s c (.strel g) → k.enabled g.pred = true → (k.getS g.ra.toNat).toNat % 8 = 0 →
       ∃ t, exec (.strel c g) s = .next t ∧ skipped t g.q))

/-! ## Memory -/

/-- A row read under generation g - 1 never passes a check under g, and a row moved to another place of its tile fails its check:
the seeds of R213 differ. A tile that mixes rows of two whole-tile writes is never classified GOOD: with the header of generation g,
rows written under g and at least one under g - 1, it is TORN_TILE (R226, R243). A record with POISON set, or with a row that passes
under neither generation, classifies as CORRUPT_TILE, with the lowest such row; a tile with its producer's record classifies GOOD;
SUM is checked for whole tiles only (R218, R226). -/
def Obligations.TornTiles : Prop :=
  ((∀ (g : BitVec 32) (r : Nat), r < 64 → seed g r ≠ seed (g - 1) r) ∧
   (∀ (g : BitVec 32) (r q : Nat), r < 64 → q < 64 → r ≠ q → seed g r ≠ seed g q)) ∧
  (∀ (data : TileData) (t : TileRec) (old : Nat → Bool), recPoison t = false →
     (∀ r, r < 64 → codeAt t.code r = rowCode (if old r then t.gen - 1 else t.gen) r (tileRow data r)) →
     (∃ r, r < 64 ∧ old r = true) → classifyTile ⟨data, t⟩ = .torn) ∧
  ((∀ (data : TileData) (t : TileRec) (rows : List Nat) (w : Bool), recPoison t = true → classify data t rows w = .corrupt 65) ∧
   (∀ (data : TileData) (t : TileRec) (a : List Nat) (r : Nat) (b : List Nat) (w : Bool), recPoison t = false →
     (∀ q ∈ a, codeAt t.code q = rowCode t.gen q (tileRow data q) ∨ codeAt t.code q = rowCode (t.gen - 1) q (tileRow data q)) →
     codeAt t.code r ≠ rowCode t.gen r (tileRow data r) → codeAt t.code r ≠ rowCode (t.gen - 1) r (tileRow data r) →
     classify data t (a ++ r :: b) w = .corrupt r) ∧
   (∀ (data : TileData) (gen : BitVec 32) (fmt : BitVec 8) (owner : BitVec 24) (anchor : BitVec 16),
     classifyTile ⟨data, freshRec data gen fmt 0 owner anchor⟩ = .good))

/-- A whole-tile write opens when nothing on its tile arrived before it, under the stored generation plus 1, and stores nothing yet
(R220 step 2, R222). Otherwise nothing changes. An open whole-tile write closes: the rows not stored before take the data of the
write and its codes re-seeded to its generation, the header takes FMT, ANCHOR and OWNER of the incoming one and the generation, and
no other byte or record changes (R214, R217, R220). Its requester is then told. A stack that has failed discards it (R481). A
partial write that may open is performed: each of its rows not stored before takes its new bits, and its code changes by the crc14
of the difference; GEN, FMT, ANCHOR and OWNER stay, a record whose SUM failed is poisoned, POISON is never cleared, and no other
byte or record changes (R217, R219, R222). Choices of the model in it: log entries 1 and 20. -/
def Obligations.TileWrites : Prop :=
  (∀ (s : State) (tile : BitVec 36), s.numbered →
     (∀ o, (s.mem.opsOn tile.toNat).head? = some o → ∀ img g l, o.kind = .whole img g l → o.opened = false →
       ∃ t, exec (.tileWriteOpen tile) s = .next t ∧ t = { s with mem := { s.mem with ops := t.mem.ops } } ∧
         t.mem.ops = s.mem.ops.map fun x => if x.id = o.id then
           { o with opened := true, kind := .whole img ((s.mem.recAt tile.toNat).gen + 1) 0 } else x) ∧
     ((∀ o, (s.mem.opsOn tile.toNat).head? = some o → (o.opened = true ∨ ∀ img g l, o.kind ≠ .whole img g l)) →
       exec (.tileWriteOpen tile) s = .next s)) ∧
  (∀ (s : State) (tile : BitVec 36) (o : PocOp) (img : TileImg) (g : BitVec 32) (landed : BitVec 64), s.numbered →
     (s.mem.opsOn tile.toNat).find? (fun x => x.isWhole && x.opened) = some o → o.kind = .whole img g landed →
     ∃ u : State, exec (.tileWriteClose tile) s = .next ((u.writeDone o.who).pumpDom o.dom).engines ∧
       u = { s with mem := u.mem, cnt := u.cnt } ∧ u.mem.ops = s.mem.ops.filter (fun x => x.id != o.id) ∧
       u.mem.loc = s.mem.loc ∧ u.mem.locTcr = s.mem.locTcr ∧
       (s.failedStack (placeOf (tile.toNat * 4096)) = true → u.mem.pkg = s.mem.pkg ∧ u.mem.tcr = s.mem.tcr) ∧
       (s.failedStack (placeOf (tile.toNat * 4096)) = false →
         (∀ a, a / 4096 ≠ tile.toNat → u.mem.byte a = s.mem.byte a) ∧
         (∀ n, n ≠ tile.toNat → u.mem.recAt n = s.mem.recAt n) ∧
         (∀ r, r < 64 → landed.getLsbD r = false →
           u.mem.row tile.toNat r = tileRow img.data r ∧
           u.mem.rowCodeAt tile.toNat r = codeAt img.tcr.code r ^^^ seed img.tcr.gen r ^^^ seed g r) ∧
         (∀ r, r < 64 → landed.getLsbD r = true →
           u.mem.row tile.toNat r = s.mem.row tile.toNat r ∧ u.mem.rowCodeAt tile.toNat r = s.mem.rowCodeAt tile.toNat r) ∧
         (u.mem.recAt tile.toNat).gen = g ∧ (u.mem.recAt tile.toNat).fmt = img.tcr.fmt ∧
         (u.mem.recAt tile.toNat).anchor = img.tcr.anchor ∧ (u.mem.recAt tile.toNat).owner = img.tcr.owner ∧
         u.mem.sumOk tile.toNat = true ∧
         recPoison (u.mem.recAt tile.toNat) = (recPoison img.tcr || decide (sumOf img.tcr ≠ img.tcr.sum)))) ∧
  (∀ (s : State) (tile : BitVec 36) (o : PocOp) (rows : List RowChange) (landed : BitVec 64), s.numbered →
     s.mem.partReady tile.toNat = some o → o.kind = .part rows landed → (rows.map RowChange.row).Nodup →
     (∀ c ∈ rows, c.row < 64) → (∃ c ∈ rows, landed.getLsbD c.row = false) →
     s.failedStack (placeOf (tile.toNat * 4096)) = false →
     ∃ u : State, exec (.partialWrite tile) s = .next ((u.writeDone o.who).pumpDom o.dom).engines ∧
       u = { s with mem := u.mem, cnt := u.cnt } ∧ u.mem.ops = s.mem.ops.filter (fun x => x.id != o.id) ∧
       u.mem.loc = s.mem.loc ∧ u.mem.locTcr = s.mem.locTcr ∧
       (∀ a, a / 4096 ≠ tile.toNat → u.mem.byte a = s.mem.byte a) ∧
       (∀ n, n ≠ tile.toNat → u.mem.recAt n = s.mem.recAt n) ∧
       (∀ c ∈ rows, landed.getLsbD c.row = false →
         u.mem.row tile.toNat c.row = (s.mem.row tile.toNat c.row &&& ~~~c.mask) ||| (c.val &&& c.mask) ∧
         u.mem.rowCodeAt tile.toNat c.row =
           s.mem.rowCodeAt tile.toNat c.row ^^^ crc14 (s.mem.row tile.toNat c.row ^^^ u.mem.row tile.toNat c.row)) ∧
       (∀ r, r < 64 → (∀ c ∈ rows, c.row ≠ r ∨ landed.getLsbD r = true) →
         u.mem.row tile.toNat r = s.mem.row tile.toNat r ∧ u.mem.rowCodeAt tile.toNat r = s.mem.rowCodeAt tile.toNat r) ∧
       (u.mem.recAt tile.toNat).gen = (s.mem.recAt tile.toNat).gen ∧
       (u.mem.recAt tile.toNat).fmt = (s.mem.recAt tile.toNat).fmt ∧
       (u.mem.recAt tile.toNat).anchor = (s.mem.recAt tile.toNat).anchor ∧
       (u.mem.recAt tile.toNat).owner = (s.mem.recAt tile.toNat).owner ∧ u.mem.sumOk tile.toNat = true ∧
       recPoison (u.mem.recAt tile.toNat) = (recPoison (s.mem.recAt tile.toNat) || !s.mem.sumOk tile.toNat))

/-- A read of a tile with no write open or waiting on it takes the rows and codes as they stand (R221, R222); its header is read
last, carries a fresh SUM and the stored fields, and POISON where the stored SUM fails (R224, R245), and waits while a whole-tile
write is open. A read never returns a row with the code of another write (R221): while one whole-tile write is open, each row it
returns is the stored row with its code, or the row of the write with its code under the write's generation (R243). Its header waits
for the write. Choices of the model in it: log entry 1. -/
def Obligations.TileReadings : Prop :=
  (∀ (s : State) (tile : BitVec 36) (o : PocOp), s.numbered →
     (∀ x ∈ s.mem.opsOn tile.toNat, x.isWhole = false ∧ x.isPart = false) →
     s.failedStack (placeOf (tile.toNat * 4096)) = false →
     (s.mem.readReady tile.toNat = some o → o.kind = .read none →
       ∃ t, exec (.tileRead tile) s = .next t ∧ t = { s with mem := { s.mem with ops := t.mem.ops }, cnt := t.cnt } ∧
         ∃ codes, t.mem.ops = (s.mem.ops.map fun x => if x.id = o.id then
           { o with opened := true, kind := .read (some (s.mem.tileData tile.toNat, codes)) } else x) ∧
         ∀ r, r < 64 → codeAt codes r = s.mem.rowCodeAt tile.toNat r) ∧
     (s.mem.headerReady tile.toNat = some o → ∀ data codes, o.kind = .read (some (data, codes)) →
       ∃ u img, exec (.tileReadHeader tile) s = .next (u.readDone o.dom img o.who) ∧
         u = { s with mem := { s.mem with ops := s.mem.ops.filter fun x => x.id != o.id } } ∧
         img.data = data ∧ img.tcr.code = codes ∧ sumOf img.tcr = img.tcr.sum ∧
         img.tcr.gen = (s.mem.recAt tile.toNat).gen ∧ img.tcr.fmt = (s.mem.recAt tile.toNat).fmt ∧
         img.tcr.owner = (s.mem.recAt tile.toNat).owner ∧ img.tcr.anchor = (s.mem.recAt tile.toNat).anchor ∧
         recPoison img.tcr = (recPoison (s.mem.recAt tile.toNat) || !s.mem.sumOk tile.toNat))) ∧
  (∀ (s : State) (tile : BitVec 36) (w o : PocOp) (img : TileImg) (g : BitVec 32) (landed : BitVec 64), s.numbered →
     s.mem.opsOn tile.toNat = [w, o] → w.kind = .whole img g landed → w.opened = true → o.kind = .read none →
     s.failedStack (placeOf (tile.toNat * 4096)) = false →
     exec (.tileReadHeader tile) s = .next s ∧
     ∃ t data codes, exec (.tileRead tile) s = .next t ∧ (∃ x ∈ t.mem.ops, x.id = o.id ∧ x.kind = .read (some (data, codes))) ∧
       ∀ r, r < 64 →
         (tileRow data r = s.mem.row tile.toNat r ∧ codeAt codes r = s.mem.rowCodeAt tile.toNat r) ∨
         (tileRow data r = tileRow img.data r ∧ codeAt codes r = codeAt img.tcr.code r ^^^ seed img.tcr.gen r ^^^ seed g r))

/-- The scrubber reads the next tile of its pass; a quiet tile that is good stays as it is, and one that is corrupt is counted,
logged and poisoned in its stored header, with its rows and generation kept (R228). Choices of the model in it: log entries 1 and
34. -/
def Obligations.Scrubbing : Prop :=
  ∀ (s : State) (p : Fin 4),
    let pos := s.fld (rScrubStat p) 0 32
    let tile := scrubTile p pos
    (s.rbit (rScrubCtl p) 63 = false → exec (.scrubTile p) s = .next s) ∧
    (s.rbit (rScrubCtl p) 63 = true → s.fencedPlace (.reservoir p) = false → s.numbered → pos < scrubTiles →
      s.mem.opsOn tile = [] → s.fencedPlace (placeOf (tile * 4096)) = false → s.failedStack (placeOf (tile * 4096)) = false →
      ∃ t, exec (.scrubTile p) s = .next t ∧ t.fld (rScrubStat p) 0 32 = pos + 1 ∧
        t = { s with regs := t.regs, cnt := t.cnt, mem := t.mem, parts := t.parts } ∧ t.mem.ops = s.mem.ops ∧
        t.mem.pkg = s.mem.pkg ∧ t.mem.loc = s.mem.loc ∧ t.mem.locTcr = s.mem.locTcr ∧
        (∀ n, n ≠ tile → t.mem.recAt n = s.mem.recAt n) ∧
        (classifyTile (s.mem.serve tile) = .good → t.mem.tcr = s.mem.tcr ∧
          t.fld (rScrubStat p) 32 16 = s.fld (rScrubStat p) 32 16) ∧
        (∀ r, classifyTile (s.mem.serve tile) = .corrupt r →
          t.fld (rScrubStat p) 32 16 = min (s.fld (rScrubStat p) 32 16 + 1) 0xFFFF ∧
          t.fld (rFlogPtr p) 0 5 = (s.fld (rFlogPtr p) 0 5 + 1) % 32 ∧
          recPoison (t.mem.recAt tile) = true ∧ (t.mem.recAt tile).gen = (s.mem.recAt tile).gen ∧
          (t.mem.recAt tile).code = (s.mem.recAt tile).code))

/-- An invalidation sets BUSY, takes its entries out of the translation cache of the partition, all of its context or the page it
names, and ends BUSY; a write while BUSY is 1 does nothing (R209, R233). A translation changes no memory: only the cache of its
partition, the latch of a failure, the count of uncorrectable reads and the counter of free values; a context address of more than
48 bits fails as NOT_MAPPED, and every failure is latched with its cause, context and address (R206, R211). A translation that the
cache does not hold follows the tables of its own partition and context (R207, R208, R548): what it gives is the walk's leaf entry
under the checks on the page, and only a valid leaf entry is cached (R209). -/
def Obligations.Translation : Prop :=
  (∀ (s : State) (p : Fin 4) (v : Word),
     (s.accepts .mgmtCore (rPtInv p) = true → s.rbit (rPtInv p) 63 = false → bit v 0 = true →
       ∃ t, exec (.ptInvalidate p v) s = .next t ∧ OnlyRegs s t [rPtInv p] ∧ t.rbit (rPtInv p) 63 = true ∧
         t.fld (rPtInv p) 52 4 = fieldN v 52 4 ∧ t.rbit (rPtInv p) 56 = bit v 56 ∧ t.fld (rPtInv p) 21 27 = fieldN v 21 27) ∧
     (s.rbit (rPtInv p) 63 = true → exec (.ptInvalidate p v) s = .next s) ∧
     (s.rbit (rPtInv p) 63 = true → ∃ t, exec (.ptInvalidateDone p) s = .next t ∧
       t = { s with parts := t.parts, regs := t.regs } ∧ RegsKept s t [rPtInv p] ∧ t.rbit (rPtInv p) 63 = false ∧
       (∀ q, q ≠ p → t.part q = s.part q) ∧ t.part p = { s.part p with tlb := (t.part p).tlb } ∧
       ∀ e, e ∈ (t.part p).tlb ↔ e ∈ (s.part p).tlb ∧ ¬ (e.ctx = s.fld (rPtInv p) 52 4 ∧
         (s.rbit (rPtInv p) 56 = true ∨ e.page = s.fld (rPtInv p) 21 27 * 0x200000 / pageSize e.big)))) ∧
  (∀ (s : State) (p : Fin 4) (ctx : Nat) (ca : Word) (w : Bool),
     let x := s.translate p ctx ca w
     x.s = { s with parts := x.s.parts, regs := x.s.regs, freeCtr := x.s.freeCtr } ∧
     (∀ q, q ≠ p → x.s.part q = s.part q) ∧ x.s.part p = { s.part p with tlb := (x.s.part p).tlb } ∧
     (∀ a, a ≠ rXlateErr p → (∀ q n, a ≠ rHbmEcc q n) → x.s.reg a = s.reg a) ∧
     (2 ^ 48 ≤ ca.toNat → x.pa = .error 1) ∧
     (∀ e, x.pa = .error e → e < 256 → x.s.fld (rXlateErr p) 56 8 = e ∧ x.s.fld (rXlateErr p) 52 4 = ctx % 16 ∧
       x.s.fld (rXlateErr p) 0 48 = ca.toNat % 2 ^ 48) ∧
     (∀ pa, x.pa = .ok pa → x.s.reg (rXlateErr p) = s.reg (rXlateErr p))) ∧
  (∀ (s : State) (p : Fin 4) (ctx : Nat) (ca : Word) (w : Bool), ca.toNat < 2 ^ 48 →
     tlbFind (s.part p).tlb ctx ca.toNat = none →
     let x := s.translate p ctx ca w
     (∀ big e, walk s.mem s.failedStack (s.reg (rPtRoot p ctx)) ca.toNat = .ok (big, e) →
       pteV e = true ∧ pteLeaf e = true ∧ pteReserved e = false ∧
       (∃ y, y ∈ (x.s.part p).tlb ∧ y.ctx = ctx ∧ y.big = big ∧ y.entry = e) ∧
       (x.pa = .ok (pteAddr e + ca.toNat % pageSize big) ↔
         pteAddr e % pageSize big = 0 ∧ everyPlace Place.mappable (pteAddr e) (pageSize big) = true ∧
         (if w then pteW e else pteR e) = true)) ∧
     (∀ c, walk s.mem s.failedStack (s.reg (rPtRoot p ctx)) ca.toNat = .error c → x.pa = .error c.1 ∧ x.s.part p = s.part p))

/-! ## Links and Tensor Fabric -/

/-- A block that is intact and in sequence is taken: its four flits join the input, of which the packet that STOMP ends is dropped;
its ACK frees the replay buffer and its credits return. With NAK set, what is still kept is sent again, and a block replayed 8 times
fails the port. Any other block is discarded and NAK set once (R266, R267, R269, R303, R304). Choices of the model in it: log
entries 1 and 32. -/
def Obligations.LinkBlocks : Prop :=
  ∀ (s : State) (n : Fin 36) (b : BitVec 2176), s.portUp n.val = true ∨ s.portState n.val = 4 →
    let x := s.port n.val
    let good := lcrcOk b = true ∧ bfld b 2048 16 = x.rxSeq
    let kept := x.replay.filter fun e => decide (0x8000 ≤ (bfld b 2064 16 - e.seq).toNat)
    let q := (bfld b 2088 4).toNat
    let cr := (bfld b 2096 12).toNat
    let again := b.getLsbD 2080 = true ∧ kept ≠ []
    let taken := fun (t : State) (l : List TxBlock) => (∀ m, m ≠ n.val → t.port m = s.port m) ∧
      t.port n.val = { x with
        rxSeq := x.rxSeq + 1, rxBad := false, ackAt := s.now, replay := l, credits := (t.port n.val).credits,
        flits := (t.port n.val).flits } ∧
      (∃ gone, x.flits ++ [bfld b 0 512, bfld b 512 512, bfld b 1024 512, bfld b 1536 512] = (t.port n.val).flits ++ gone ∧
        (b.getLsbD 2081 = false → gone = [])) ∧
      ∀ j, (t.port n.val).credit j = if j = q ∧ q < 12 ∧ cr ≠ 0 then min (x.credit j + cr) 256 else x.credit j
    (good → ¬ again → ∃ t, exec (.linkBlock n b) s = .next t ∧ PortsOnly s t [] ∧
      (b.getLsbD 2081 = false → t.out = s.out) ∧ taken t kept) ∧
    (good → again → (∀ e ∈ kept, e.sends < 8) → ∃ t, exec (.linkBlock n b) s = .next t ∧ PortsOnly s t [rPerr n.val] ∧
      taken t (kept.map fun e => { e with sends := e.sends + 1 }) ∧
      t.fld (rPerr n.val) 0 16 = min (s.fld (rPerr n.val) 0 16 + 1) 0xFFFF) ∧
    (good → again → (∃ e ∈ kept, 8 ≤ e.sends) → ∃ t, exec (.linkBlock n b) s = .next t ∧
      PortsOnly s t [rPerr n.val, rPort n.val] ∧ PortShows t n.val 3 2) ∧
    (¬ good → x.rxBad = false → ∃ t, exec (.linkBlock n b) s = .next t ∧ PortsOnly s t [] ∧
      (∀ m, m ≠ n.val → t.port m = s.port m) ∧ t.port n.val = { x with rxBad := true } ∧
      t.out = s.out ++ [.link n.val 0 (x.rxSeq - 1)]) ∧
    (¬ good → x.rxBad = true → exec (.linkBlock n b) s = .next s)

/-- A port fails when its peer turns dark, after 10 µs without ACK, or with the loss of its last half; the loss of one half of two
only takes it out of its group to retrain (R265, R303, R551). Each asks the peer what it accepted (R305). An LSM none of whose lanes
holds lock is FAILED (R317). The answer to RESYNC has every packet after the last one accepted sent again, on a port of the group or
its detour, and the replay buffer is empty (R305, R306). While there is none, RESYNC goes again every 10 µs over each path that is
up; after 50 µs every packet of the buffer is lost and counted, and each request among them answered (R305, R307). Choices of the
model in it: log entries 1, 30, 33 and 93. -/
def Obligations.LinkRecovery : Prop :=
  (∀ (s : State) (n : Fin 36) (high : Bool), s.portUp n.val = true ∨ s.portState n.val = 4 →
     let x := s.port n.val
     let m := lsmOf n.val high
     let uses := s.portWidth n.val / (if high then 2 else 1) % 2 = 1
     let other := if high then x.lowBad else x.highBad
     let bad := fun (t : State) => ∀ e ∈ fedHalves m, (if e.2 then (t.port e.1).highBad else (t.port e.1).lowBad) = true
     (∃ t, exec (.peerDark n) s = .next t ∧ PortsOnly s t [rPort n.val] ∧ LeftGroup s t n.val 3 4) ∧
     (x.replay ≠ [] → x.ackAt + 10000 ≤ s.now →
       ∃ t, exec (.noAckTimeout n) s = .next t ∧ PortsOnly s t [rPort n.val] ∧ LeftGroup s t n.val 3 3) ∧
     (x.replay = [] ∨ s.now < x.ackAt + 10000 → exec (.noAckTimeout n) s = .next s) ∧
     (∃ t, exec (.laneLockLoss n high) s = .next t ∧ PortsOnly s t [rPort n.val, rLsm m] ∧
       (if high then (t.port n.val).highBad else (t.port n.val).lowBad) = true ∧
       (uses → other = true → LeftGroup s t n.val 3 1) ∧ (uses → other = false → LeftGroup s t n.val 1 0) ∧
       (¬ uses → t.reg (rPort n.val) = s.reg (rPort n.val) ∧ t.out = s.out) ∧
       (bad t → s.lsmState m = 1 ∨ s.lsmState m = 2 → t.lsmState m = 3) ∧ (¬ bad t → t.reg (rLsm m) = s.reg (rLsm m)))) ∧
  (∀ (s : State) (n : Fin 36) (last : BitVec 16) (t0 t1 : Nat), (s.port n.val).resync = some (t0, t1) →
     let x := s.port n.val
     let later := x.replay.filterMap fun b =>
       if (b.seq - last).toNat ≠ 0 ∧ (b.seq - last).toNat < 0x8000 then b.last else none
     let way := fun (p : Packet) => s.leave (n.val / 18) (some (portRole n.val / 2)) (portRole n.val) p
     (portRole n.val < 6 → s.portUp n.val = false → (∀ p ∈ later, (way p).isSome = true) →
       ∃ t, exec (.resync n last) s = .next t ∧ PortsOnly s t [] ∧ (t.port n.val).resync = none ∧ (t.port n.val).replay = [] ∧
         t.out = s.out ++ later.filterMap fun p => (way p).map fun w => Output.packet w.1 w.2) ∧
     (t1 + 10000 ≤ s.now → s.now < t0 + 50000 →
       ∃ t, exec (.resyncResend n) s = .next t ∧ PortsOnly s t [] ∧ (t.port n.val).resync = some (t0, s.now) ∧
         t.out = s.out ++ (s.resyncPaths n.val).map fun m => Output.packet m (s.resyncPacket n.val)) ∧
     (s.now < t1 + 10000 ∨ t0 + 50000 ≤ s.now → exec (.resyncResend n) s = .next s) ∧
     (s.now < t0 + 50000 → exec (.resyncTimeout n) s = .next s) ∧
     (t0 + 50000 ≤ s.now → ∃ t, exec (.resyncTimeout n) s = .next t ∧
       AnswerOnly s t [rFabErr (dieOf (n.val / 18))] ∧
       t.fld (rFabErr (dieOf (n.val / 18))) 0 16 =
         min (s.fld (rFabErr (dieOf (n.val / 18))) 0 16 + ((x.replay.filterMap TxBlock.last).map s.memberCount).sum) 0xFFFF))

/-- Training brings a port up with the halves that are good and lit, if its peer is the one that R261 requires; it ends FAILED with
MISWIRE or with loss of lock, or DARK with the cause that keeps it dark (R261 to R263, R265). A port out of service drains first and
then turns dark (R308). A module whose identity check fails is reported and not lit; one that passes is lit and makes the halves it
feeds good again (Table 8.26, Table 15.6). One taken out or switched off reads EMPTY and its halves are lost. Hours of laser-on time
are counted and written back (R521). Choices of the model in it: log entries 1 and 33. -/
def Obligations.PortsAndModules : Prop :=
  (∀ (s : State) (n : Fin 36),
     let x := s.reg (rPort n.val)
     let low := fun (b : Bool) => b && (s.lsm (lsmOf n.val false)).lit
     let high := fun (b : Bool) => b && (s.lsm (lsmOf n.val true)).lit
     let up := fun (t : State) (l h : Bool) =>
       t = { s with fab := { s.fab with ports := t.fab.ports }, regs := t.regs, sys := { s.sys with upd := t.sys.upd } } ∧
       RegsKept s t [rPort n.val, rPerr n.val] ∧ t.portState n.val = 2 ∧ t.portWidth n.val = (if l then 1 else 0) + (if h then 2 else 0) ∧
       t.fld (rPort n.val) 50 4 = 0 ∧ t.reg (rPerr n.val) = 0 ∧ (∀ m, m ≠ n.val → t.port m = s.port m) ∧
       (t.port n.val).txSeq = 0 ∧ (t.port n.val).rxSeq = 0 ∧ (∀ q, (t.port n.val).credit q = 256)
     let may := s.portUp n.val = false ∧ s.portState n.val ≠ 4 ∧ s.opticsOn = true ∧ (s.port n.val).resync = none
     (∀ peer pp l h, may → bit x 49 = true → s.keptDark n.val = none →
       (portRole n.val < 6 → (coordOf peer, pp.toNat) = s.cabledTo n.val) → (low l || high h) = true →
       ∃ t, exec (.portTrain n peer pp l h) s = .next t ∧ up t (low l) (high h) ∧
         t.fld (rPort n.val) 0 15 = peer.toNat ∧ t.fld (rPort n.val) 38 6 = pp.toNat) ∧
     (∀ peer pp l h, may → bit x 49 = true → s.keptDark n.val = none → portRole n.val < 6 →
       (coordOf peer, pp.toNat) ≠ s.cabledTo n.val →
       ∃ t, exec (.portTrain n peer pp l h) s = .next t ∧ OnlyRegs s t [rPort n.val] ∧ PortShows t n.val 3 5) ∧
     (∀ peer pp l h c, may → bit x 49 = true → s.keptDark n.val = some c →
       ∃ t, exec (.portTrain n peer pp l h) s = .next t ∧ OnlyRegs s t [rPort n.val] ∧ PortShows t n.val 0 c) ∧
     (∀ l h, s.portState n.val = 1 → s.opticsOn = true → (s.port n.val).resync = none →
       ((low l || high h) = true → ∃ t, exec (.portRetrain n l h) s = .next t ∧ up t (low l) (high h)) ∧
       ((low l || high h) = false → ∃ t, exec (.portRetrain n l h) s = .next t ∧ OnlyRegs s t [rPort n.val] ∧
         PortShows t n.val 3 1)) ∧
     (∀ src v, s.accepts src (rPort n.val) = true → bit x 49 = true → bit v 49 = false →
       ∃ t, exec (.portDisable src n v) s = .next t ∧ OnlyRegs s t [rPort n.val] ∧ t.rbit (rPort n.val) 49 = false ∧
         (s.portUp n.val = true → t.portState n.val = 4) ∧ (s.portUp n.val = false → PortShows t n.val 0 6)) ∧
     (s.portState n.val = 4 → (s.port n.val).replay = [] →
       ∃ t, exec (.portDrainDone n) s = .next t ∧ OnlyRegs s t [rPort n.val] ∧ PortShows t n.val 0 6) ∧
     (s.portState n.val ≠ 4 ∨ (s.port n.val).replay ≠ [] → exec (.portDrainDone n) s = .next s)) ∧
  (∀ (s : State) (m : Fin 12) (serial : BitVec 128) (hours rated : BitVec 32) (power : BitVec 8) (acked : Bool),
     let only := fun (t : State) =>
       t = { s with
         fab := { s.fab with ports := t.fab.ports, lsm := t.fab.lsm }, regs := t.regs, cnt := t.cnt, out := t.out } ∧
       RegsKept s t (rLsm m.val :: rLsmCtl m.val :: (fedHalves m.val).map fun e => rPort e.1) ∧
       ∀ j, j ≠ m.val → t.lsm j = s.lsm j
     let lost := fun (t : State) => ∀ e ∈ fedHalves m.val, (if e.2 then (t.port e.1).highBad else (t.port e.1).lowBad) = true
     (∃ t, exec (.lsmInsert m false serial hours rated power) s = .next t ∧ only t ∧ t.lsmState m.val = 4 ∧
       (t.lsm m.val).lit = false ∧ (t.lsm m.val).present = true ∧ t.fld (rLsm m.val) 0 32 = hours.toNat ∧ t.fab.ports = s.fab.ports) ∧
     (s.opticsOn = true → s.rbit (rLsmCtl m.val) 63 = false →
       ∃ t, exec (.lsmInsert m true serial hours rated power) s = .next t ∧ only t ∧
         t.lsmState m.val = (if power.toNat < 90 then 2 else 1) ∧ t.fld (rLsm m.val) 52 8 = power.toNat ∧
         t.fld (rLsm m.val) 0 32 = hours.toNat ∧ (t.lsm m.val).lit = true ∧ (t.lsm m.val).serial = serial ∧
         ∀ e ∈ fedHalves m.val, (if e.2 then (t.port e.1).highBad else (t.port e.1).lowBad) = false) ∧
     (∃ t, exec (.lsmRemove m) s = .next t ∧ only t ∧ t.lsmState m.val = 0 ∧ (t.lsm m.val).present = false ∧
       ((s.lsm m.val).lit = true → (t.lsm m.val).lit = false ∧ lost t)) ∧
     (∀ src v i, (i = .lsmOff src m v acked ∨ i = .lsmWriteBack src m v acked) →
       s.accepts src (rLsmCtl m.val) = true → s.rbit (rLsmCtl m.val) 63 = false → (s.lsm m.val).present = true →
       (bit v 63 = true → (s.lsm m.val).lit = true → ∃ t, exec i s = .next t ∧ only t ∧ t.rbit (rLsmCtl m.val) 63 = true ∧
         t.lsmState m.val = 0 ∧ (t.lsm m.val).lit = false ∧ lost t ∧
         ∃ l, t.out = s.out ++ .lsmWrite m.val (field (s.reg (rLsm m.val)) 0 32) :: l) ∧
       (bit v 63 = false → bit v 62 = true → ∃ t, exec i s = .next t ∧ only t ∧ RegsKept s t [] ∧
         t.out = s.out ++ [.lsmWrite m.val (field (s.reg (rLsm m.val)) 0 32)] ∧
         t.lsm m.val = if acked then { s.lsm m.val with backPtc := s.ptc.setWidth 32 } else s.lsm m.val)) ∧
     ((s.lsm m.val).lit = true → (s.lsm m.val).present = true → 3600 ≤ (s.ptc - (s.lsm m.val).hourAt).toNat →
       ∃ t, exec (.lsmHours m acked) s = .next t ∧ only t ∧ t.fab.ports = s.fab.ports ∧
         t.fld (rLsm m.val) 0 32 = min (s.fld (rLsm m.val) 0 32 + 1) 0xFFFFFFFF ∧
         (t.lsm m.val).hourAt = (s.lsm m.val).hourAt + 3600 ∧ t.out = s.out ++ [.lsmWrite m.val (field (t.reg (rLsm m.val)) 0 32)]) ∧
     ((s.ptc - (s.lsm m.val).hourAt).toNat < 3600 → exec (.lsmHours m acked) s = .next s) ∧
     ((s.lsm m.val).lit = true → power.toNat < 90 → ∃ t, exec (.lsmDegraded m power) s = .next t ∧ OnlyRegs s t [rLsm m.val] ∧
       t.fld (rLsm m.val) 52 8 = power.toNat ∧ t.lsmState m.val = if s.lsmState m.val = 1 then 2 else s.lsmState m.val))

/-- Every hop of a route brings the packet one step nearer its target, on X first, then on Y, then on Z, the shorter way round and +
where both are equal; a packet that is there has no hop. The target is MID_COORD in phase 0 and DST_COORD in phase 1, and a packet
at its MID_COORD is in phase 1: phase 0 is empty where MID_COORD is the source, and phase 1 where it is DST_COORD (R285). -/
def Obligations.RoutesShorten : Prop :=
  (∀ (ext c t : Coord), c.within ext → t.within ext →
    let dist := fun (a b : Coord) => axisDist a.x b.x ext.x + axisDist a.y b.y ext.y + axisDist a.z b.z ext.z
    (nextDir ext c t = none ↔ c = t) ∧
    ∀ d, nextDir ext c t = some d →
      d < 6 ∧ (neighbour ext c d).within ext ∧ dist (neighbour ext c d) t + 1 = dist c t ∧
      (1 ≤ d / 2 → c.x = t.x) ∧ (2 ≤ d / 2 → c.y = t.y) ∧ axisOf d c ≠ axisOf d t ∧
      (d % 2 = 0 ↔ (axisOf d t + axisOf d ext - axisOf d c) % axisOf d ext ≤
        (axisOf d c + axisOf d ext - axisOf d t) % axisOf d ext)) ∧
  (∀ (s : State) (home : Nat) (axis : Option Nat) (p : Packet), s.coord.within s.extents →
    (coordOf p.midCoord).within s.extents → (coordOf p.dstCoord).within s.extents →
    let phase1 := p.ph = true ∨ coordOf p.midCoord = s.coord
    let target := if phase1 then coordOf p.dstCoord else coordOf p.midCoord
    (s.coord = target → phase1 ∧ ∃ q, s.hop home axis p = .here q ∧ q.payload = p.payload ∧ q.ph = true) ∧
    (s.coord ≠ target → ∀ m q, s.hop home axis p = .out m q → (q.ph = true ↔ phase1) ∧
      (p.det = true ∨ q.det = false → ∃ d, nextDir s.extents s.coord target = some d ∧ m ∈ s.groupUp d)))

/-- A router drops a packet whose HCRC fails and counts it (R273). Any other packet for another package leaves by one port of its
direction, with only DL, PH, DET and HCRC changed and its flits' credits returned (R269, R273, R275, R286, R298); with no port up
there and no detour to take it is lost, and a request answered LINK_LOSS (R306). The routing mode of a request (R274, R283, R284):
collective and control traffic, and tensor traffic to a neighbour, is minimal; other tensor traffic goes by an intermediate package
that is a fixed function of the context's seed, the two IDs and SEQ, and lies in the route box. Choices of the model in it: log
entries 1 and 49. -/
def Obligations.ForwardingAndMode : Prop :=
  (∀ (s : State) (n : Fin 36) (p : Packet),
     let die := n.val / 18
     let back : Output := .link n.val 3 (BitVec.ofNat 16 (packetFlits p))
     (headerOk p = false → ∃ t, exec (.packetForward n p) s = .next t ∧ PortsOnly s t [rFabErr (dieOf die)] ∧
       t.out = s.out ++ [back] ∧ t.fld (rFabErr (dieOf die)) 48 16 = min (s.fld (rFabErr (dieOf die)) 48 16 + 1) 0xFFFF) ∧
     (∀ d, headerOk p = true → p.mc = false →
       nextDir s.extents s.coord (coordOf (if p.ph || coordOf p.midCoord == s.coord then p.dstCoord else p.midCoord)) = some d →
       ((∀ m q, s.leave die (portAxis n.val) d
           (if !p.ph && coordOf p.midCoord == s.coord then { p with ph := true, dl := false } else p) = some (m, q) →
         (s.portTakes m q = true → ∃ t, exec (.packetForward n p) s = .next t ∧ PortsOnly s t [] ∧
           t.out = s.out ++ [back, .packet m q]) ∧
         (s.portTakes m q = false → exec (.packetForward n p) s = .next s) ∧
         headerOk q = true ∧ q = { p with dl := q.dl, ph := q.ph, det := q.det, hcrc := q.hcrc } ∧
         (s.groupUp d ≠ [] → m ∈ s.groupUp d ∧ q.det = p.det ∧
           ((∃ k ∈ s.groupUp d, k / 18 = die) → m / 18 = die)) ∧
         (s.groupUp d = [] → p.det = false ∧ q.det = true ∧ portRole m / 2 ≠ d / 2)) ∧
       (s.groupUp d = [] → p.det = true ∨ p.dhint = 0 → isRequest p.typ = true →
         ∃ t, exec (.packetForward n p) s = .next t ∧ AnswerOnly s t [rFabErr (dieOf die)] ∧
           t.fld (rFabErr (dieOf die)) 0 16 = min (s.fld (rFabErr (dieOf die)) 0 16 + 1) 0xFFFF ∧
           Answered { s with out := s.out ++ [back] } t die p 13 0x0A 0 .none)))) ∧
  (∀ (s : State) (c : Fin 16) (bank : Bool) (src : BitVec 19) (entry : Word) (p : Packet), p.mc = false →
     let q := s.addressed (some c) bank src entry p
     let e := s.extents
     let b := s.routeBox c.val
     (q = { p with
         bank := bank, srcEp := src, dstCoord := eCoord entry, dhint := eDhint entry, dl := false, det := false, ph := q.ph,
         min := q.min, midCoord := q.midCoord }) ∧
     (p.tc ≠ 0 ∨ oneStep e s.coord (coordOf (eCoord entry)) = true → q.min = true ∧ q.ph = true ∧ q.midCoord = q.dstCoord) ∧
     (p.tc = 0 → oneStep e s.coord (coordOf (eCoord entry)) = false → q.min = false ∧ q.ph = false ∧
       (e.x ≤ 16 → e.y ≤ 16 → e.z ≤ 128 →
         ∃ i j k, i < b.2.x ∧ j < b.2.y ∧ k < b.2.z ∧
           coordOf q.midCoord = ⟨(b.1.x + i) % e.x, (b.1.y + j) % e.y, (b.1.z + k) % e.z⟩)) ∧
     (∀ t : State, t.extents = e → t.coord = s.coord → t.routeBox c.val = b → t.routeSeed c.val = s.routeSeed c.val →
       t.addressed (some c) bank src entry p = q))

/-- A request at the front of its pair leaves only with a source and a destination that may talk (R278, R279) and in the present
generation of its issuing domain (R452): otherwise nothing is sent and its operation fails with the status. One that may, on an open
stream that lets it go and with a way out, leaves as one packet under the next tag, in the active bank, with the stream's tag; it is
counted in ORIG and awaits its answer (R272, R287, R298, R299). Choices of the model in it: log entries 1 and 29. -/
def Obligations.SourceSends : Prop :=
  ∀ (s : State) (n : Nat) (r : SrcReq), s.fab.src[n]? = some r → s.behind n r = false → r.pkt.rty = false → r.pkt.mc = false →
    let die := epDie r.pkt.dstEp
    let home := match r.die with | some d => d.val | none => die
    let refused := fun (st : BitVec 8) (l : List Nat) => ∃ v : State, exec (.sourceSend n) s = .next (v.failTo st r.who).engines ∧
      v = { s with fab := { s.fab with src := s.fab.src.eraseIdx n }, regs := v.regs } ∧ RegsKept s v l
    (s.gen r.dom ≠ r.pkt.rgen → refused 9 [rRstGen (domOwner r.dom)]) ∧
    (s.gen r.dom = r.pkt.rgen → s.ctxBarred r.ctx = false → s.srcId r.ctx s.bank = none → refused 8 []) ∧
    (∀ src, s.gen r.dom = r.pkt.rgen → s.ctxBarred r.ctx = false → s.srcId r.ctx s.bank = some src →
      let a := s.ept die s.bank src.toNat
      let b := s.ept die s.bank r.pkt.dstEp.toNat
      (eValid a = false ∨ eValid b = false ∨ eSlice a ≠ eSlice b ∨ eAccepts b r.pkt.tc = false →
        refused 8 [rFabErr (dieOf home)]) ∧
      (∀ e, eValid a = true → eValid b = true → eSlice a = eSlice b → eAccepts b r.pkt.tc = true →
        (s.half die).streamOf src r.pkt.dstEp s.bank = some e → s.streamHold r e = .wait →
        exec (.sourceSend n) s = .next s.engines) ∧
      (∀ e m q, eValid a = true → eValid b = true → eSlice a = eSlice b → eAccepts b r.pkt.tc = true →
        (s.half die).streamOf src r.pkt.dstEp s.bank = some e → s.streamHold r e = .go →
        s.hop home none (e.dress (s.addressed r.ctx s.bank src b r.pkt)) = .out m q → s.portTakes m q = true →
        ∃ u : State, exec (.sourceSend n) s = .next u.engines ∧
          u = { s with fab := u.fab, regs := u.regs, cnt := u.cnt, out := u.out } ∧ RegsKept s u [rBankCnt s.bank] ∧
          u.fld (rBankCnt s.bank) 32 32 = (s.fld (rBankCnt s.bank) 32 32 + 1) % 2 ^ 32 ∧
          u.fab.src = s.fab.src.eraseIdx n ∧ u.fab.nextTag = s.fab.nextTag + 1 ∧
          (∃ o, u.fab.out = s.fab.out ++ [o] ∧ o.tag = s.fab.nextTag ∧ o.bank = s.bank ∧ o.dom = r.dom ∧ o.who = r.who ∧
            o.left = 1 ∧ o.status = 0 ∧ o.gone = false) ∧
          ∃ z, u.out = s.out ++ [.packet m z] ∧ headerOk z = true ∧ z.tag = s.fab.nextTag ∧ z.bank = s.bank ∧ z.srcEp = src ∧
            z.dstEp = r.pkt.dstEp ∧ z.dstCoord = eCoord b ∧ z.stream = e.tag ∧ z.trk = decide (e.tracked = some true) ∧
            z.typ = r.pkt.typ ∧ z.seq = r.pkt.seq ∧ z.rgen = r.pkt.rgen ∧ z.offset = r.pkt.offset ∧ z.payload = r.pkt.payload))

/-- An answer ends its request once every member has answered, counts in TERM of its bank and reports to the operation: an ACK as a
write done, READ_RESP with its tile, RESP8 with its eight bytes, a NACK with its status (R272, R297, R299). An answer of another
generation changes no memory and no core; it is counted (R452). One whose HCRC fails is dropped and counted (R273). Choices of the
model in it: log entries 1 and 28. -/
def Obligations.Answers : Prop :=
  ∀ (s : State) (n : Fin 36) (p : Packet) (o : OutReq), s.requestOf p = some o →
    let closed := fun (w : State) => w = { s with fab := w.fab, regs := w.regs } ∧ RegsKept s w [rBankCnt o.bank] ∧
      w.fld (rBankCnt o.bank) 0 32 = (s.fld (rBankCnt o.bank) 0 32 + 1) % 2 ^ 32 ∧
      w.fab.out = s.fab.out.filter (fun x => x.tag != o.tag) ∧ w.fab.src = s.fab.src
    let live := headerOk p = true ∧ o.gone = false ∧ p.rgen = o.pkt.rgen ∧ o.left ≤ 1 ∧ o.status = 0 ∧
      ∀ e ∈ (s.half (epDie o.pkt.dstEp)).streams, e.ended = false
    let late := headerOk p = true ∧ o.gone = false ∧ p.rgen ≠ o.pkt.rgen
    let dropped := fun (t : State) => OnlyRegs s t [rRstGen (domOwner o.dom)] ∧
      t.fld (rRstGen (domOwner o.dom)) 32 16 = min (s.fld (rRstGen (domOwner o.dom)) 32 16 + 1) 0xFFFF
    (live → ackFits o.pkt = true → ∃ w : State, closed w ∧
      exec (.ack n p) s = .next ((w.writeDone o.who).pumpDom o.dom).engines) ∧
    (live → o.pkt.typ = 2 → ∀ img, p.payload = .tile img → ∃ w : State, closed w ∧
      exec (.readResp n p) s = .next (w.readDone o.dom img o.who)) ∧
    (live → o.pkt.typ = 4 ∨ o.pkt.typ = 8 → ∃ w : State, closed w ∧
      exec (.resp8 n p) s = .next (w.read8Done p.data8 o.who)) ∧
    (live → (o.pkt.pen = false ∨ p.status ≠ 3 ∨ bit p.data8 0 = false) → ∃ w : State, closed w ∧
      exec (.nack n p) s = .next (w.failTo p.status o.who).engines) ∧
    (live → o.pkt.pen = true → o.pkt.mc = false → p.status = 3 → bit p.data8 0 = true →
      (∃ e ∈ (s.half (epDie o.pkt.dstEp)).streams, e.tag = o.pkt.stream ∧ e.dst = o.pkt.dstEp) →
      ∃ w : State, exec (.nack n p) s = .next w.engines ∧ w = { s with fab := w.fab, regs := w.regs } ∧
        w.fab.out = s.fab.out.filter (fun x => x.tag != o.tag) ∧
        ∃ r, w.fab.src = r :: s.fab.src ∧ r.dom = o.dom ∧ r.who = o.who ∧ r.pkt.rty = true ∧ r.pkt.trk = false ∧
          r.pkt.epoch = o.pkt.epoch ∧ r.pkt.dstEp = o.pkt.dstEp) ∧
    (late → ∃ t, dropped t ∧ exec (.ack n p) s = .next t.engines ∧
      exec (.nack n p) s = .next t.engines ∧ exec (.resp8 n p) s = .next t ∧
      (∀ img, p.payload = .tile img → exec (.readResp n p) s = .next t)) ∧
    (headerOk p = false → ∃ t, exec (.resp8 n p) s = .next t ∧ OnlyRegs s t [rFabErr (dieOf (n.val / 18))] ∧
      t.fld (rFabErr (dieOf (n.val / 18))) 48 16 = min (s.fld (rFabErr (dieOf (n.val / 18))) 48 16 + 1) 0xFFFF)

/-- Ingress: a request whose HCRC fails is dropped and counted, with no answer (R273). One that fails the checks of R280 and R37
changes no memory and is answered NACK with the first status that applies, FENCED while the package is reset (R456); one that passes goes on to the point of coherence of its
address, as a whole-tile write of the generation to come, a tile read, or eight bytes (R217, R219, R280). A request on a service
port is sent on only if it comes from the endpoint attached there, in the active bank, and its entries may talk: it then counts in
ORIG (R282, R299, R300). Otherwise nothing is sent on, and a NACK with ROUTE_ISOLATION leaves by that port. Choices of the model in
it: log entries 31 and 102. -/
def Obligations.Ingress : Prop :=
  (∀ (s : State) (n : Fin 36) (p : Packet) (i : Instr), (i, p.typ) ∈ requestCommand n p →
     let die := n.val / 18
     let w := s.lepOf die p
     let entries := entriesOk (s.ept die p.bank p.srcEp.toNat) (s.ept die p.bank p.dstEp.toNat) p.tc = true
     let allowed := p.typ = 5 ∨ ∃ len, len = (if p.typ = 1 ∨ p.typ = 2 then 4096 else 8) ∧ p.offset.toNat + len ≤ s.winSize w ∧
       p.offset.toNat % len = 0 ∧ (if p.typ = 1 ∨ p.typ = 3 then s.winWr w else s.winRd w) = true
     let open' := s.winValid w = true ∧ (p.typ = 5 ∨ s.fencedPlace (placeOf (s.winAddr w p)) = false)
     let whole := s.resets.any (fun j => j.dom == .package) = true ∨ s.sys.boot.due = true
     let pa := s.winAddr w p
     let lands := fun (l : List (Nat × PocKind)) => (p.pen = false ∨ p.trk = false) → ∃ t, exec i s = .next t ∧
       t = { s with mem := { s.mem with ops := t.mem.ops, nextOp := t.mem.nextOp } } ∧ Arrived s t l
     (headerOk p = false → ∃ t, exec i s = .next t ∧ OnlyRegs s t [rFabErr (dieOf die)] ∧
       t.fld (rFabErr (dieOf die)) 48 16 = min (s.fld (rFabErr (dieOf die)) 48 16 + 1) 0xFFFF) ∧
     (headerOk p = true → p.mc = false → ¬ entries ∨ (¬ whole ∧ ¬ allowed) → ∃ t, exec i s = .next t ∧ AnswerOnly s t [rFabErr (dieOf die)] ∧
       t.fld (rFabErr (dieOf die)) 16 16 = min (s.fld (rFabErr (dieOf die)) 16 16 + 1) 0xFFFF ∧ Answered s t die p 13 8 0 .none) ∧
     (headerOk p = true → p.mc = false → entries → whole ∨ (allowed ∧ ¬ open') → ∃ t, exec i s = .next t ∧ AnswerOnly s t [] ∧
       Answered s t die p 13 3 0 .none) ∧
     (∀ d, headerOk p = true → p.mc = false → entries → ¬ whole → allowed → open' → s.staleOwn die p = some d →
       ∃ t, exec i s = .next t ∧ AnswerOnly s t [rRstGen (domOwner d)] ∧ Answered s t die p 13 9 0 .none) ∧
     (headerOk p = true → p.mc = false → entries → ¬ whole → allowed → open' → s.staleOwn die p = none →
       (match placeOf pa with | .hbm _ _ | .reservoir _ | .cluster _ _ => True | _ => False) →
       (∀ img, p.typ = 1 → p.payload = .tile img → lands [(pa / 4096, .whole img 0 0)]) ∧
       (p.typ = 2 → lands [(pa / 4096, .read none)]) ∧ (p.typ = 4 → lands [(pa / 4096, .read8 (pa % 4096))]) ∧
       (p.typ = 3 → ∃ c : List RowChange, (∀ x ∈ c, x.row = pa % 4096 / 64 ∧
           x.mask = BitVec.ofNat 512 ((2 ^ 64 - 1) * 2 ^ (8 * (pa % 64))) ∧
           x.val = BitVec.ofNat 512 (p.data8.toNat * 2 ^ (8 * (pa % 64)))) ∧ c.length = 1 ∧ lands [(pa / 4096, .part c 0)]))) ∧
  (∀ (s : State) (k : Fin 6) (p : Packet),
     let n := servicePort k.val
     let die := n / 18
     let a := s.ept die p.bank p.srcEp.toNat
     let b := s.ept die p.bank p.dstEp.toNat
     let mine := eValid a = true ∧ eSvc a = true ∧ coordOf (eCoord a) = s.coord ∧ eSport a = k.val ∧ p.bank = s.bank
     let nack := fun (t : State) (lo : Nat) => PortsOnly s t [rFabErr (dieOf die)] ∧
       t.fld (rFabErr (dieOf die)) lo 16 = min (s.fld (rFabErr (dieOf die)) lo 16 + 1) 0xFFFF ∧
       ∃ q, t.out = s.out ++ [.packet n q] ∧ q.typ = 13 ∧ q.status = 8 ∧ q.dstEp = p.srcEp ∧ q.tag = p.tag
     s.portUp n = true → isRequest p.typ = true → headerOk p = true →
     (¬ mine → ∃ t, exec (.servicePortRequest k p) s = .next t ∧ nack t 16) ∧
     (mine → entriesOk a b p.tc = false → ∃ t, exec (.servicePortRequest k p) s = .next t ∧ nack t 32) ∧
     (mine → entriesOk a b p.tc = true → p.mc = false → ∀ m q, s.hop die none (s.addressed none p.bank p.srcEp b p) = .out m q →
       (s.portTakes m q = false → exec (.servicePortRequest k p) s = .next s) ∧
       (s.portTakes m q = true → ∃ t, exec (.servicePortRequest k p) s = .next t ∧ PortsOnly s t [rBankCnt p.bank] ∧
         t.fld (rBankCnt p.bank) 32 32 = (s.fld (rBankCnt p.bank) 32 32 + 1) % 2 ^ 32 ∧ t.out = s.out ++ [.packet m q])))

/-- A notification adds 1 to the counter that it names and to its tally, if the core is one of the launch of the window's context
(R159, R190), and is answered. OPEN creates a tracker entry and is answered tracked, or untracked and counted where the tracker is
full (R288); CLOSE frees the entry (R294). A tracked pennant takes effect only when the count of its epoch has reached PCOUNT and
the pennant of the epoch before has taken effect, or it is of the stream's first epoch (R291); until then it is held with no effect,
and where it cannot be held it is asked for again (R292). One that is held takes effect by PENNANT_EFFECT once it may. Choices of
the model in it: log entry 1. -/
def Obligations.NotificationsAndPennants : Prop :=
  (∀ (s : State) (n : Fin 36) (p : Packet), headerOk p = true → s.ingressStatus (n.val / 18) p = none →
     let die := epDie p.srcEp
     let w := s.lepOf (n.val / 18) p
     let h := s.half die
     (∀ c l, p.typ = 5 → p.pen = false ∨ p.trk = false → unpackCore p.core = some c → qNamed p.rq = true → s.launchOf c = some l →
       w ≠ 0 → l.ctx.val = s.winCtx w → (s.core c).st = .run ∨ (s.core c).st = .barrier →
       ∃ t, exec (.notify n p) s = .next t ∧
         t = { s with
           cores := t.cores, stores := t.stores, fab := t.fab, regs := t.regs, cnt := t.cnt, out := t.out } ∧
         CoresKept s t c ∧ RegsKept s t [rBankCnt false, rBankCnt true] ∧ (t.core c).s = (s.core c).s ∧
         (t.core c).pc = (s.core c).pc ∧ Signalled (s.core c) (t.core c) (p.rq.toNat % 16) 1 ∧
         (∀ d, d ≠ c → t.store d = s.store d) ∧ (t.store c).ledger = (s.store c).ledger ∧
         (∀ q, (mget (fun _ => 0) (t.store c).tally q).toNat =
           if q = p.rq.toNat % 16 then min ((mget (fun _ => 0) (s.store c).tally q).toNat + 1) 0xFFFF
           else (mget (fun _ => 0) (s.store c).tally q).toNat) ∧
         Answered s t (n.val / 18) p 10 0 0 .none) ∧
     (p.typ = 6 → ∃ t, exec (.openStream n p) s = .next t ∧
       t = { s with fab := t.fab, regs := t.regs, cnt := t.cnt, out := t.out } ∧
       RegsKept s t [rBankCnt false, rBankCnt true, rPtrk (dieOf die)] ∧ (∀ d, d < 2 → d ≠ die → t.half d = s.half d) ∧
       (h.trackers.length < 32768 → (∀ x ∈ (t.half die).trackers, x ∈ h.trackers ∨ x = ⟨p.srcEp, BitVec.ofNat 6 w, p.stream, [], [], false⟩) ∧
         (∃ x ∈ (t.half die).trackers, x.isFor p w = true ∧ x.counts = [] ∧ x.done = [] ∧ x.zeroDone = false) ∧
         Answered s t (n.val / 18) p 10 0 1 .none) ∧
       (32768 ≤ h.trackers.length → t.half die = h ∧
         t.fld (rPtrk (dieOf die)) 16 16 = min (s.fld (rPtrk (dieOf die)) 16 16 + 1) 0xFFFF ∧
         Answered s t (n.val / 18) p 10 0 0 .none)) ∧
     (p.typ = 7 → ∃ t, exec (.closeStream n p) s = .next t ∧
       t = { s with fab := t.fab, regs := t.regs, cnt := t.cnt, out := t.out } ∧ RegsKept s t [rBankCnt false, rBankCnt true] ∧
       (t.half die).trackers = h.trackers.filter (fun x => !x.isFor p w) ∧ Answered s t (n.val / 18) p 10 0 0 .none)) ∧
  (∀ (s : State) (n : Fin 36) (p : Packet) (i : Instr), (i, p.typ) ∈ requestCommand n p → headerOk p = true →
     s.ingressStatus (n.val / 18) p = none → p.pen = true → p.trk = true →
     let die := epDie p.srcEp
     let h := s.half die
     let may := fun (t : Tracker) => mget (fun _ => 0) t.counts p.epoch.toNat = p.pcount.toNat ∧
       ((p.epoch = 0 ∧ t.zeroDone = false) ∨ p.epoch - 1 ∈ t.done)
     let again := ∃ t, exec i s = .next t ∧ PortsOnly s t [rBankCnt false, rBankCnt true, rPtrk (dieOf die)] ∧
       t.fld (rPtrk (dieOf die)) 0 16 = min (s.fld (rPtrk (dieOf die)) 0 16 + 1) 0xFFFF ∧
       Answered s t (n.val / 18) p 13 3 1 .none
     (s.trackerOf p = none → again) ∧
     (∀ x, s.trackerOf p = some x → ¬ may x → 256 ≤ h.hold.length → again) ∧
     (∀ x, s.trackerOf p = some x → ¬ may x → h.hold.length < 256 →
       ∃ t, exec i s = .next t ∧ t = { s with fab := { s.fab with halves := t.fab.halves } } ∧
         t.half die = { h with hold := h.hold ++ [(n.val, p)] } ∧ ∀ d, d ≠ die → t.half d = s.half d) ∧
     (∀ x, s.trackerOf p = some x → may x → exec i s = .next (s.effect n.val p)) ∧
     (∀ (d : Fin 2) (k : Nat) (port : Nat) (q : Packet) (x : Tracker), (s.half d.val).hold[k]? = some (port, q) →
       s.trackerOf q = some x →
       (x.ready q = false → exec (.pennantEffect d k) s = .next s) ∧
       (x.ready q = true → ∃ u : State, exec (.pennantEffect d k) s = .next (u.effect port q) ∧
         u = { s with fab := { s.fab with halves := u.fab.halves } } ∧
         u.half d.val = { s.half d.val with hold := (s.half d.val).hold.eraseIdx k })))

/-- A write of FAB_BANK_CTL arms a cutover to TARGET, which happens at once where FAB_BANK_AT has passed and otherwise when the FTC
reaches it; a write that names the active bank arms nothing (Tables 8.11, 8.12). At cutover TARGET is active, every stream of the
old bank has ended, and those with nothing unanswered have left the table, with a CLOSE on the old bank if they were tracked (R302).
A stream that has been idle for 10 µs with everything answered leaves the table (R294). A write of an entry goes into both copies; a
write to the active bank or to one with requests in flight has no effect and sets ERR (R25, R300). A read gives the instance's own
copy. A load writes 512 entries a tile from good tiles of the window of local endpoint 0, or stops with ERR (R315). FAB_LEP_ID_n
follows every write (R316). The walk makes a copy that is not intact whole from the other, and invalidates an entry whose two copies
differ (R475). Choices of the model in it: log entry 1. -/
def Obligations.FabricTables : Prop :=
  (∀ (s : State) (src : RegSource) (v : Word),
     let over' := fun (t : State) (b : Bool) => t.rbit rBankCtl 63 = b ∧ t.rbit rBankCtl 62 = false ∧ t.mem = s.mem ∧
       (∀ c, t.core c = s.core c) ∧ t.fab.ept = s.fab.ept ∧
       ∀ d, d < 2 → (∀ e ∈ (t.half d).streams, e.bank = !b → e.ended = true)
     (s.accepts src rBankCtl = true → bit v 0 = true → bit v 1 = s.rbit rBankCtl 63 →
       ∃ t, exec (.arm src v) s = .next t ∧ OnlyRegs s t [rBankCtl] ∧ t.rbit rBankCtl 63 = s.rbit rBankCtl 63 ∧
         t.rbit rBankCtl 62 = s.rbit rBankCtl 62) ∧
     (s.accepts src rBankCtl = true → bit v 0 = true → bit v 1 = !s.rbit rBankCtl 63 → s.ftc.toNat < (s.reg rBankAt).toNat →
       ∃ t, exec (.arm src v) s = .next t ∧ OnlyRegs s t [rBankCtl] ∧ t.rbit rBankCtl 62 = true ∧ t.rbit rBankCtl 1 = bit v 1 ∧
         t.rbit rBankCtl 63 = s.rbit rBankCtl 63) ∧
     (s.accepts src rBankCtl = true → bit v 0 = true → bit v 1 = !s.rbit rBankCtl 63 → (s.reg rBankAt).toNat ≤ s.ftc.toNat →
       ∃ t, exec (.arm src v) s = .next t ∧ over' t (bit v 1)) ∧
     (s.rbit rBankCtl 62 = true → s.rbit rBankCtl 1 = !s.rbit rBankCtl 63 → (s.reg rBankAt).toNat ≤ s.ftc.toNat →
       ∃ t, exec .cutover s = .next t ∧ over' t (s.rbit rBankCtl 1)) ∧
     (s.rbit rBankCtl 62 = false ∨ s.ftc.toNat < (s.reg rBankAt).toNat → exec .cutover s = .next s) ∧
     (∀ (die : Fin 2) (n : Nat) (e : Stream), (s.half die.val).streams[n]? = some e →
       (0 < e.unanswered ∨ s.now < e.lastSent + 10000 → exec (.streamIdleClose die n) s = .next s) ∧
       (e.unanswered = 0 → e.lastSent + 10000 ≤ s.now → e.tracked = some false →
         ∃ t, exec (.streamIdleClose die n) s = .next t ∧ t = { s with fab := { s.fab with halves := t.fab.halves } } ∧
           t.half die.val = { s.half die.val with streams := (s.half die.val).streams.filter fun x => x.tag != e.tag }))) ∧
  (∀ (s : State) (die : Fin 2) (src : RegSource) (v : Word),
     let bank := bit v 61
     let id := fieldN v 0 19
     let busy := bank = s.rbit rBankCtl 63 ∨ s.fld (rBankCnt bank) 32 32 ≠ s.fld (rBankCnt bank) 0 32
     let lep := (List.range 64).map rLepId
     (∀ i, (i = .eptWrite die src v ∨ i = .eptRead die src v) → s.accepts src (rEptIdx die) = true → bit v 63 = true →
       (bit v 62 = true → busy → ∃ t, exec i s = .next t ∧ OnlyRegs s t [rEptIdx die] ∧ t.rbit (rEptIdx die) 60 = true) ∧
       (bit v 62 = true → ¬ busy → ∃ t, exec i s = .next t ∧
         t = { s with
           regs := t.regs, fab := { s.fab with ept := t.fab.ept, eptBad := t.fab.eptBad, eptDiv := t.fab.eptDiv } } ∧
         RegsKept s t (rEptIdx die :: lep) ∧ t.rbit (rEptIdx die) 60 = false ∧
         (∀ d, d < 2 → t.ept d bank id = s.reg (rEptData die)) ∧
         ∀ d b j, d < 2 → j < 2 ^ 19 → b ≠ bank ∨ j ≠ id → t.ept d b j = s.ept d b j) ∧
       (bit v 62 = false → ∃ t, exec i s = .next t ∧ OnlyRegs s t [rEptIdx die, rEptData die] ∧
         t.reg (rEptData die) = mget (fun _ => 0) s.fab.ept (eptKey die.val bank id))) ∧
     (s.accepts src (rEptLoad die) = true → s.rbit (rEptLoad die) 63 = false → bit v 60 = true →
       ∃ t, exec (.eptLoad die src v) s = .next t ∧ OnlyRegs s t [rEptLoad die] ∧ t.rbit (rEptLoad die) 63 = true ∧
         t.rbit (rEptLoad die) 62 = false ∧ t.fld (rEptLoad die) 48 11 = fieldN v 48 11 ∧ t.fld (rEptLoad die) 0 19 = id ∧
         t.rbit (rEptLoad die) 61 = bank) ∧
     (s.rbit (rEptLoad die) 63 = true → exec (.eptLoad die src v) s = .next s) ∧
     (s.rbit (rEptLoad 0) 63 = true →
       let x := s.reg (rEptLoad 0)
       let a := s.fld (rEptSrc 0) 12 36 * 4096
       let first := fieldN x 0 19
       let done := fun (t : State) => t = { s with
           regs := t.regs, fab := { s.fab with ept := t.fab.ept, eptBad := t.fab.eptBad, eptDiv := t.fab.eptDiv } } ∧
         RegsKept s t (rEptLoad 0 :: lep) ∧ t.rbit (rEptLoad 0) 63 = false
       (s.loadOk first (fieldN x 48 11) a = false ∨ s.bankBusy (bit x 61) = true ∨ s.goodTile a = none →
         ∃ t, exec .eptLoadDone s = .next t ∧ done t ∧ t.rbit (rEptLoad 0) 62 = true ∧ t.fab.ept = s.fab.ept) ∧
       (∀ data, s.loadOk first (fieldN x 48 11) a = true → fieldN x 48 11 = 1 → s.bankBusy (bit x 61) = false →
         s.goodTile a = some data → ∃ t, exec .eptLoadDone s = .next t ∧ done t ∧ t.rbit (rEptLoad 0) 62 = false ∧
           (∀ d k, d < 2 → k < 512 → t.ept d (bit x 61) (first + k) = BitVec.ofNat 64 (bitsAt data (64 * k) 64)) ∧
           ∀ d b j, d < 2 → j < 2 ^ 19 → b ≠ bit x 61 ∨ j < first ∨ first + 512 ≤ j → t.ept d b j = s.ept d b j)) ∧
     (s.now < s.fab.walkAt + 100000000 → exec .tableWalk s = .next s) ∧
     (s.fab.walkAt + 100000000 ≤ s.now → ∃ t, exec .tableWalk s = .next t ∧ t.fab.walkAt = s.now ∧ t.mem = s.mem ∧
       ∀ d b j, d < 2 → j < 2 ^ 19 →
         ((mget (fun _ => false) s.fab.eptBad (eptKey 0 b j) = false ∧ mget (fun _ => false) s.fab.eptBad (eptKey 1 b j) = false ∧
           mget (fun _ => 0) s.fab.ept (eptKey 0 b j) ≠ mget (fun _ => 0) s.fab.ept (eptKey 1 b j)) → t.ept d b j = 0) ∧
         ((mget (fun _ => false) s.fab.eptBad (eptKey 0 b j) = true ∧ mget (fun _ => false) s.fab.eptBad (eptKey 1 b j) = false) →
           mget (fun _ => 0) t.fab.ept (eptKey 0 b j) = mget (fun _ => 0) s.fab.ept (eptKey 1 b j) ∧
           mget (fun _ => false) t.fab.eptBad (eptKey 0 b j) = false)))

/-- On the root, one write of OBS_FTC_SET sets the FTC and LOCK; any other does nothing (R494). A package other than the root steers
each millisecond toward its parent, by the average offset over the parent's ports: it steps once before READY, and then only steers,
by at most 1 tick in 10,000 (R495, R496); it is locked after 100 updates within 4 ticks. With no parent it is in HOLDOVER, which
clears LOCK after 60 s (R497). The rate for an offset is a free value (log entry 73). Choices of the model in it: log entry 1. -/
def Obligations.FabricTime : Prop :=
  ∀ (s : State) (src : RegSource) (v : Word) (n : Fin 36) (ftc : Word) (off : BitVec 32) (lock hold : Bool) (hops : BitVec 16),
    let due := s.sys.sync.steerAt + 1000000 ≤ s.now
    let only := fun (t : State) => t = { s with regs := t.regs, ftc := t.ftc, sys := { s.sys with sync := t.sys.sync } } ∧
      RegsKept s t [rObsSync, rMgtBoot]
    (s.portUp n.val = true → ∃ t, exec (.timeMarker n ftc off lock hold hops) s = .next t ∧
      t = { s with fab := { s.fab with markers := t.fab.markers } } ∧ t.marker n.val = ⟨true, ftc, off, lock, hold, hops⟩ ∧
      ∀ m, m ≠ n.val → t.marker m = s.marker m) ∧
    (s.portUp n.val = false → exec (.timeMarker n ftc off lock hold hops) s = .next s) ∧
    (s.accepts src rObsFtcSet = true → s.isRoot = true → s.rbit rObsSync 60 = false → ∃ t, exec (.ftcSet src v) s = .next t ∧
      only t ∧ t.ftc = v ∧ t.rbit rObsSync 60 = true ∧ t.rbit rObsSync 63 = true ∧ t.rbit rMgtBoot 51 = true ∧ t.sys = s.sys) ∧
    (s.isRoot = false ∨ s.rbit rObsSync 60 = true → exec (.ftcSet src v) s = .next s) ∧
    (¬ due → exec .ftcSteer s = .next s) ∧
    (s.phase = 6 → ∃ t, exec .ftcSteer s = .next t ∧ only t ∧ t.ftc = s.ftc) ∧
    (∀ d, due → s.sys.record ≠ [] → s.isRoot = false → s.parentDir = some d → s.markedUp d ≠ [] →
      ∃ t, exec .ftcSteer s = .next t ∧ only t ∧ t.fld rObsSync 57 3 = (d + 1) % 8 ∧
        t.rbit rObsSync 62 = (s.markedUp d).any (fun m => (s.marker m).holdover) ∧
        (field (t.reg rObsSync) 0 32 : BitVec 32) = BitVec.ofInt 32 (s.avgOffset d) ∧
        (s.phase ≠ 6 → s.sys.sync.stepped = false → t.ftc = s.ftc + BitVec.ofInt 64 (s.avgOffset d / 16) ∧
          t.sys.sync.stepped = true ∧ t.rbit rObsSync 63 = s.rbit rObsSync 63) ∧
        (s.phase = 6 ∨ s.sys.sync.stepped = true → t.ftc = s.ftc ∧ -100 ≤ t.sys.sync.rate ∧ t.sys.sync.rate ≤ 100 ∧
          (-64 ≤ s.avgOffset d → s.avgOffset d ≤ 64 → t.sys.sync.good = s.sys.sync.good + 1 ∧
            t.rbit rObsSync 63 = (s.rbit rObsSync 63 || decide (100 ≤ s.sys.sync.good + 1))) ∧
          (s.avgOffset d < -64 ∨ 64 < s.avgOffset d → t.sys.sync.good = 0 ∧ t.rbit rObsSync 63 = s.rbit rObsSync 63))) ∧
    (due → s.sys.record ≠ [] → s.isRoot = false → s.parentDir = none → ∃ t, exec .ftcSteer s = .next t ∧ only t ∧ t.ftc = s.ftc ∧
      t.rbit rObsSync 62 = true ∧ t.fld rObsSync 57 3 = 0 ∧ t.sys.sync.rate = s.sys.sync.rate ∧
      t.rbit rObsSync 63 = s.rbit rObsSync 63) ∧
    (s.rbit rObsSync 62 = true → s.sys.sync.holdAt + 60000000000 ≤ s.now → ∃ t, exec .holdoverExpiry s = .next t ∧ only t ∧
      t.ftc = s.ftc ∧ t.rbit rObsSync 63 = false ∧ t.rbit rMgtBoot 51 = false ∧ t.rbit rObsSync 62 = true) ∧
    (s.rbit rObsSync 62 = false ∨ s.now < s.sys.sync.holdAt + 60000000000 → exec .holdoverExpiry s = .next s)

/-! ## Collectives -/

/-- The ring schedule (R322, R333): the segments of a level divide the range of the list without gap or overlap; what one member
sends in a step its neighbour receives; every chunk of a segment passes the members in turn and comes to its owner in the last step
of the reduce-scatter; the all-gather begins with it. -/
def Obligations.RingSchedule : Prop :=
  (∀ lo hi n u : Nat, 0 < n → lo ≤ u → u < hi →
    ∃ i, i < n ∧ segAt lo hi n i ≤ u ∧ u < segAt lo hi n (i + 1) ∧
      ∀ j, j < n → segAt lo hi n j ≤ u → u < segAt lo hi n (j + 1) → j = i) ∧
  (∀ lo hi n : Nat, 0 < n → lo ≤ hi → segAt lo hi n 0 = lo ∧ segAt lo hi n n = hi) ∧
  (∀ (c : Coll) (q a stp : Nat), 1 < c.ext a → c.pos a < c.ext a →
    c.sendSeg q a true 0 = c.pos a ∧ c.recvSeg q a false (c.ext a - 2) = c.pos a ∧
    (∀ k, k < c.ext a → ∃ t, t < c.ext a ∧ c.sendSeg q a false t = k) ∧
    ∀ (d : Coll) (ag : Bool), NextOn a c d →
      (q % 2 = 0 → d.recvSeg q a ag stp = c.sendSeg q a ag stp ∧ d.rank = c.peer a false) ∧
      (q % 2 = 1 → c.recvSeg q a ag stp = d.sendSeg q a ag stp ∧ c.rank = d.peer a true)) ∧
  (∀ c : Coll, c.ext 0 = 4 → c.ext 1 = 4 → c.ext 2 = 2 → c.px = 1 → c.py = 2 → c.pz = 0 → c.units = 256 →
    c.rank = 9 ∧ c.listLen 0 = 64 ∧ c.range 0 1 = (16, 32) ∧ c.range 0 2 = (24, 28) ∧ c.owned 0 = (24, 26) ∧
    c.seg 0 0 (c.sendSeg 0 0 false 0) = (0, 16) ∧ c.seg 0 0 (c.recvSeg 0 0 false 0) = (48, 64))

/-- Slots are taken by the lowest identifier that waits, within the 4,096 slots of an engine and the quota of the context, and HELD
goes to the leader with the group digest (R327, R328). A refused HELD or YIELD goes again after 10 µs (R331). Without GO when RWAIT
is over, the leader ends the collective and any other package sends YIELD with the flag (R330). An engine that waits for packets and to
which none has come for DLIMIT ends it (R355). A message between engines is acknowledged and acts on its collective (R328 to R330, R341 to R344,
R350, R353); `a` is the state once it has been. The leader sends GO when every package is held and all digests agree, and ends the
collective when two differ; a package with GO begins its rings; YIELD is answered by YIELD_OK or GO_SENT; CREDIT adds, FIN is kept,
END ends. A payload without its CRC ends the collective; a contribution seen before only counts; a first half takes a slot. A
message of a collective that has ended, or that this package does not know, is answered FENCED and counted as late; HELD and YIELD
for one that is still to come are answered RWAIT_TIMEOUT with the flag that asks for a retry (R331, R353). Choices of the model in
it: log entries 1, 37, 38, 61 and 62. -/
def Obligations.CollectiveMessages : Prop :=
  (∀ (s : State) (id : BitVec 32) (c : Coll) (d : Fin 2),
     let first := fun (f : Coll → Bool) => s.colls.find? (fun x => x.id == id && f x) = some c
     let set := fun (f : Coll → Coll) => s.modColl c.ring c.idx f
     let ended := fun (i : Instr) st => ∃ u : State, exec i s = .next u.engines ∧ CollEnded s u c st 5
     (first s.mayReserve → s.findColl c.ring c.idx = some c → (s.colls.map fun x => (x.ring, x.idx)).Nodup →
       let u := set fun x => { x with phase := .held, again := none, lastMsg := s.now }
       exec (.reservation id) s = .next (u.sendKind c 0 ckHeld akHeld (groupDigest c.desc).toNat) ∧ c.phase = .waiting ∧
         (∀ x ∈ s.colls, x.phase = .waiting → c.id.toNat ≤ x.id.toNat) ∧
         u.slotsHeld (fun _ => true) ≤ 4096 ∧ u.slotsHeld (fun x => x.ctx == c.ctx) ≤ s.slotQuota c.ctx.val) ∧
     ((∀ x ∈ s.colls, x.id = id → s.mayReserve x = false) → exec (.reservation id) s = .next s) ∧
     (first (fun x => x.again.isSome && decide (x.lastMsg + 10000 ≤ s.now)) → s.now < c.since + c.rwait →
       (c.again = some akHeld → exec (.collRetry id) s = .next
         ((set fun x => { x with again := none, lastMsg := s.now }).sendKind c 0 ckHeld akHeld (groupDigest c.desc).toNat)) ∧
       (c.again = some akYield → exec (.collRetry id) s = .next
         ((set fun x => { x with yield := some (c.yield == some true), again := none, lastMsg := s.now }).sendKind c 0 ckYield akYield
           (if c.yield = some true then 1 else 0)))) ∧
     (first (fun x => x.phase != .running && decide (x.since + x.rwait ≤ s.now)) → s.findColl c.ring c.idx = some c →
       (c.rank = 0 → c.goSent = false → ended (.rwaitExpiry id) stRwTimeout) ∧
       (c.rank = 0 → c.goSent = true → exec (.rwaitExpiry id) s = .next s) ∧
       (c.rank ≠ 0 → c.yield ≠ some true → exec (.rwaitExpiry id) s = .next
         ((set fun x => { x with yield := some true, again := none, lastMsg := s.now }).sendKind c 0 ckYield akYield 1))) ∧
     (first (fun x => x.phase == .running) → s.findColl c.ring c.idx = some c → 1 < c.size →
       (c.wants d.val = true → mget (fun _ => 0) c.lastData d.val + mget (fun _ => 0) c.dlimit d.val ≤ s.now →
         ended (.dlimitExpiry d id) stTimeout) ∧
       (c.wants d.val = false ∨ s.now < mget (fun _ => 0) c.lastData d.val + mget (fun _ => 0) c.dlimit d.val → exec (.dlimitExpiry d id) s = .next s))) ∧
  (∀ (s : State) (n : Fin 36) (p : Packet) (c x : Coll), headerOk p = true → s.ingressStatus (n.val / 18) p = none →
     p.typ = 9 → s.collOf n.val p = some c →
     let die := n.val / 18
     let v := s.modColl c.ring c.idx fun c => { c with lastData := mput (fun _ => 0) c.lastData die s.now }
     let a := v.answer n.val p stOk
     let kind := fun k => cfKind p.coll = k
     let leads := fun (i : Instr) (f : State → Prop) => ∃ u : State, exec i s = .next u.engines ∧ f u
     let becomes := fun (i : Instr) (y : Coll) => leads i fun u => CollBecomes a u c.ring c.idx y
     a.findColl c.ring c.idx = some x → x.id = c.id → x.ctx = c.ctx → x.desc = c.desc →
     (Answered v a die p 10 0 0 .none) ∧
     (∀ k, kind ckHeld → a.senderRank c n.val p = some k → c.rank = 0 →
       let h := (x.helds.filter fun e => e.1 != k) ++ [(k, p.data8.setWidth 32)]
       let all := ∀ r, r < x.size → ∃ e ∈ h, e.1 = r
       (x.goSent = true ∨ ¬ all → becomes (.collHeld n p) { x with helds := h }) ∧
       (x.goSent = false → all → (∃ e ∈ h, ∃ e' ∈ h, e.2 ≠ e'.2) →
         leads (.collHeld n p) fun u => CollEnded a u c stConfig 6) ∧
       (x.goSent = false → all → (∀ e ∈ h, ∀ e' ∈ h, e.2 = e'.2) → ∃ w : State,
         CollBecomes a w c.ring c.idx { x with helds := h, goSent := true } ∧
         exec (.collHeld n p) s = .next
           ((List.range x.size).foldl (fun u r => u.sendKind { x with helds := h } r ckGo akOther 0) w).engines)) ∧
     (kind ckGo → c.phase ≠ .held → exec (.collGo n p) s = .next a.engines) ∧
     (c.phase = .held → x.reduces = true → x.levels ≠ [] → x.ring = c.ring → x.idx = c.idx →
       (kind ckGo → leads (.collGo n p) fun u => RingsBegin a u x) ∧
       (kind ckGoSent → c.yield = some true → leads (.goSent n p) fun u => RingsBegin a u x)) ∧
     (kind ckGoSent → c.yield ≠ some true → becomes (.goSent n p) { x with yield := none }) ∧
     (∀ k, kind ckYield → a.senderRank c n.val p = some k → c.rank = 0 →
       (c.goSent = true → exec (.collYield n p) s = .next (a.sendKind c k ckGoSent akOther 0).engines) ∧
       (c.goSent = false → bit p.data8 0 = false → ∃ w : State,
         CollBecomes a w c.ring c.idx { x with helds := x.helds.filter fun h => h.1 != k } ∧
         exec (.collYield n p) s = .next (w.sendKind c k ckYieldOk akOther 0).engines) ∧
       (c.goSent = false → bit p.data8 0 = true → leads (.collYield n p) fun u => CollEnded a u c stRwTimeout 5)) ∧
     (kind ckYieldOk → (c.yield = some true → leads (.yieldOk n p) fun u => CollEnded a u c stRwTimeout 5) ∧
       (c.yield = some false → c.phase = .held → (∀ o ∈ a.colls, o.phase = .held → o.id.toNat ≤ c.id.toNat) →
        leads (.yieldOk n p) fun u =>
         u = { a with colls := u.colls, regs := u.regs } ∧ RegsKept a u [rColEvt 0, rColEvt 1] ∧
         u.findColl c.ring c.idx = some { x with phase := .waiting, yield := none } ∧
         ∀ d : Fin 2, u.fld (rColEvt d) 16 16 = min (a.fld (rColEvt d) 16 16 + 1) 0xFFFF) ∧
       (c.yield = none → exec (.yieldOk n p) s = .next a.engines)) ∧
     (∀ k, kind ckFin → a.senderRank c n.val p = some k → becomes (.collFin n p)
       { x with fins := (x.fins.filter fun f => f.1 != 4 * k + cfSpart p.coll) ++ [(4 * k + cfSpart p.coll, p.mask)] }) ∧
     (kind ckEnd → leads (.collEnd n p) fun u => CollEnded a u c p.status 4) ∧
     (∀ y, kind ckCredit → v.findColl c.ring c.idx = some y → ∃ (w : State) (z : Coll),
       CollBecomes v w c.ring c.idx { y with credits := z.credits } ∧
       exec (.collCredit n p) s = .next (w.answer n.val p stOk).engines ∧
       ∀ k, mget (fun _ => 0) z.credits k = mget (fun _ => 0) y.credits k +
         if k = (die * 2 + cfDir p.coll) * 4 + cfLevel p.coll then fieldN p.data8 0 32 else 0) ∧
     (∀ y, kind ckData → c.phase ≠ .waiting → v.findColl c.ring c.idx = some y → y.ring = c.ring → y.idx = c.idx →
       (payloadOk p = false → leads (.collData n p) fun u => CollEnded a u c stCorrupt 3) ∧
       (∀ q, payloadOk p = true → p.payload = .wide q → y.awaits p = true →
         (y.applied p = true → leads (.collData n p) fun u => OnlyRegs a u [rColEvt (dieOf die)] ∧
           u.fld (rColEvt (dieOf die)) 48 16 = min (a.fld (rColEvt (dieOf die)) 48 16 + 1) 0xFFFF) ∧
         (y.applied p = false → x.slotAt (cfLevel p.coll) false p.offset.toNat = none →
           let z := List.replicate 256 (0 : BitVec 80)
           let slot : Chunk := { blankChunk (y.quad p.offset.toNat) (cfLevel p.coll) false (cfStep p.coll) p.offset.toNat with
             inbound := true, got := if cfPart p.coll = 0 then 1 else 2
             vals := if cfPart p.coll = 0 then payloadVals p.payload ++ z else z ++ payloadVals p.payload }
           becomes (.collData n p) { x with chunks := x.chunks ++ [slot] })))) ∧
  (∀ (s : State) (n : Fin 36) (p : Packet), headerOk p = true → s.ingressStatus (n.val / 18) p = none → p.typ = 9 →
     s.collOf n.val p = none →
     let die := n.val / 18
     let late := fun (i : Instr) => ∃ t, exec i s = .next t ∧ AnswerOnly s t [rColEvt (dieOf die)] ∧
       Answered s t die p 13 3 0 .none ∧ t.fld (rColEvt (dieOf die)) 0 16 = min (s.fld (rColEvt (dieOf die)) 0 16 + 1) 0xFFFF
     let again := fun (i : Instr) => ∃ t, exec i s = .next t ∧ AnswerOnly s t [] ∧ Answered s t die p 13 4 1 .none
     (∀ k i, (k, i) ∈ [(ckGo, Instr.collGo n p), (ckYieldOk, .yieldOk n p), (ckGoSent, .goSent n p), (ckData, .collData n p),
         (ckCredit, .collCredit n p), (ckFin, .collFin n p), (ckEnd, .collEnd n p)] → cfKind p.coll = k → late i) ∧
     (∀ k i, (k, i) ∈ [(ckHeld, Instr.collHeld n p), (ckYield, .collYield n p)] → cfKind p.coll = k →
       ((s.lepOf die p, collIdOf p) ∈ s.fab.ended → late i) ∧ ((s.lepOf die p, collIdOf p) ∉ s.fab.ended → again i)))

/-! ## Commands and host links -/

/-- A doorbell from the ring's source with a TAIL that moves 1 to the ring's size on sets TAIL; any other is counted; one by a port
whose link is down is lost (R362, R364), and one whose function still has a posted write to be performed waits (R258). Enabling a ring clears its indexes and writes every completion slot with the index before
its first use (R369, R370); a ring with started commands stays enabled. A command whose work is done writes its record once, with
the first error status met or else its warning's (R368, R371); LOW passes it when every earlier one has completed. FENCE ORDER is
done when LOW has come to it, FENCE COMMAND when its target has completed (R375). Choices of the model in it: log entries 1, 46, 47
and 63. -/
def Obligations.RingsAndRecords : Prop :=
  (∀ (s : State) (src : DoorSource) (rs : RegSource) (r : Fin 64) (tail : BitVec 32) (v : Word),
     let down := ∃ p, doorPort src = some p ∧ s.pcieUp p = false
     let waits := ∃ p fn o, doorFn src = some (p, fn) ∧ o ∈ s.mem.ops ∧ o.who = .bar p fn
     let step := (tail - s.ringTail r.val).toNat
     let ok := s.ringEn r.val = true ∧ s.doorFrom src r.val = true ∧ 1 ≤ step ∧ step ≤ s.ringSize r.val
     let die := s.doorDie src r.val
     let en := fun (f : State → Prop) => ∃ t, exec (.ringEnable rs r v) s = .next t ∧ f t
     let size := 16 * 2 ^ fieldN v 52 4
     let pa := s.cqBase r.val
     (down ∨ waits → exec (.doorbell src r tail) s = .next s) ∧
     (¬ down → ¬ waits → ok → ∃ t, exec (.doorbell src r tail) s = .next t ∧ OnlyRegs s t [rRingIdx r.val] ∧ t.ringTail r.val = tail ∧
       t.ringLow r.val = s.ringLow r.val) ∧
     (¬ down → ¬ waits → ¬ ok → ∃ t, exec (.doorbell src r tail) s = .next t ∧ OnlyRegs s t [rHstHerr die] ∧
       t.fld (rHstHerr die) 32 16 = min (s.fld (rHstHerr die) 32 16 + 1) 0xFFFF) ∧
     (s.accepts rs (rRingCfg r.val) = true →
       (s.ringEn r.val = true → bit v 63 = true ∨ s.ringCmds r.val ≠ [] → exec (.ringEnable rs r v) s = .next s) ∧
       (s.ringEn r.val = true → bit v 63 = false → s.ringCmds r.val = [] → en fun t =>
         t = { s with regs := t.regs, host := t.host } ∧ RegsKept s t [rRingCfg r.val] ∧ t.ringEn r.val = false ∧
         t.ringBase r.val = s.ringBase r.val ∧ t.ringSize r.val = s.ringSize r.val) ∧
       (s.ringEn r.val = false → fieldN v 52 4 ≤ 12 → fieldN v 60 2 ≠ 3 → bit v 63 = true →
         (∀ k, k < (size + 127) / 128 → (match placeOf (pa + 4096 * k) with | .hbm _ _ | .reservoir _ => True | _ => False) ∧
           s.fencedPlace (placeOf (pa + 4096 * k)) = false) →
         en fun t =>
           t = { s with regs := t.regs, host := t.host, mem := { s.mem with ops := t.mem.ops, nextOp := t.mem.nextOp } } ∧
           RegsKept s t [rRingCfg r.val, rRingIdx r.val] ∧ t.ringEn r.val = true ∧ t.ringStopped r.val = false ∧
           t.ringSize r.val = size ∧ t.ringBase r.val = fieldN v 12 36 * 4096 ∧ t.ringSrc r.val = fieldN v 60 2 ∧
           t.ringMgmt r.val = (if (∃ p, rs = .pf p) ∨ rs = .mgmtCore then bit v 62 else s.ringMgmt r.val) ∧
           t.reg (rRingIdx r.val) = 0 ∧ t.ringNext r.val = 0 ∧ (∀ i, (r.val, i) ∉ t.host.ringDone) ∧
           ArrivedFor s t ((List.range ((size + 127) / 128)).map fun k =>
             let n := min 128 (size - 128 * k)
             ((pa + 4096 * k) / 4096, .part (rowChanges ((pa + 4096 * k) % 4096) (32 * n)
               (packNat 256 ((List.range n).map fun i => (128 * k + i + 2 ^ 32 - size) % 2 ^ 32))) 0, .posted))) ∧
       (s.ringEn r.val = false → 12 < fieldN v 52 4 ∨ fieldN v 60 2 = 3 → exec (.ringEnable rs r v) s = .next s))) ∧
  ((∀ c : Cmd, c.result = if c.status ≠ 0 then c.status else if c.warn.getLsbD 2 then 0x0D else if c.warn.getLsbD 1 then 0x07
     else if c.warn.getLsbD 0 then 0x06 else 0x00) ∧
   ∀ (s : State) (ring : Fin 64) (n : BitVec 32) (c : Cmd),
     (s.host.cmds.find? fun c => c.ring == ring.val && c.idx == n) = some c →
     let r := ring.val
     let pa := s.cqBase r + n.toNat % s.ringSize r * 32
     let low := s.ringLow r
     let first := fun o k => bitsAt (BitVec.ofNat 256 (c.record s.ftc)) o k
     (c.done = false → c.type ≠ 4 → exec (.commandComplete ring n) s = .next s) ∧
     (c.done = false → c.type = 4 → dsc c.desc 0x10 1 = 0 → low ≠ n → exec (.commandComplete ring n) s = .next s) ∧
     (c.type < 256 → dsc c.desc 4 4 < 2 ^ 32 → first 0 32 = n.toNat ∧ first 32 8 = c.result.toNat ∧ first 40 8 = c.type ∧
       first 64 32 = dsc c.desc 4 4 ∧ first 128 64 = c.start.toNat ∧ first 192 64 = s.ftc.toNat) ∧
     (c.done = true ∨ (c.type = 4 ∧ dsc c.desc 0x10 1 = 0 ∧ low = n) → s.host.halted = [] → s.rbit rObsLogCfg 63 = false →
       ∃ t, exec (.commandComplete ring n) s = .next t ∧
         t = { s with regs := t.regs, host := t.host, mem := t.mem, out := t.out, cnt := t.cnt } ∧
         RegsKept s t [rRingIdx r, rRingCfg r] ∧
         t.host.cmds = s.host.cmds.filter (fun x => !(x.ring == r && x.idx == n)) ∧
         (low ≠ n → (r, low) ∉ s.host.ringDone → t.ringLow r = low ∧ (r, n) ∈ t.host.ringDone) ∧
         (low = n → (r, n + 1) ∉ s.host.ringDone → t.ringLow r = n + 1) ∧
         (s.ringStopped r = true → t.mem = s.mem ∧ t.out = s.out) ∧
         (s.ringStopped r = false → s.cqPlace r (placeOf pa) = false → t.mem = s.mem ∧ t.ringStopped r = true) ∧
         (s.ringStopped r = false → (match placeOf pa with | .hbm _ _ | .reservoir _ => True | _ => False) →
           s.fencedPlace (placeOf pa) = false →
           ArrivedFor s t [(pa / 4096, .part (rowChanges (pa % 4096) 32 (c.record s.ftc)) 0, s.ringMsg c)])))

/-- A command starts as the next of its ring once the ring and its descriptor let it (R365, R366); COMMAND_START reads the
descriptor from memory and is then the row of its type (R363, R367). A descriptor that is refused, or cannot be read, ends the
command with its status. FENCE ORDER and FENCE COMMAND wait, and the latter ends the LAUNCH or COLLECTIVE of its index first; FENCE
DOMAIN begins the reset of its domain; COUNTERS writes the snapshot; MAINT queues its operation (R375, R492). A MOVE starts with a
read of each source tile, of which COPY writes the tile to its destination and PUT sends it; GET asks for each tile by READ_TILE; by
Ethernet tiles leave or come in whole, with new records (R374). A tile that does not translate ends the command CONFIG_INVALID,
before any is moved; a MAC that is down LINK_LOSS. Choices of the model in it: log entries 1, 14, 17, 23, 52, 65 and 67. -/
def Obligations.CommandsAndMoves : Prop :=
  (∀ (s : State) (ring : Fin 64) (d : BitVec 1024) (i : Instr) (ok : Bool), (i, ok) ∈ startRows ring d →
     let r := ring.val
     let n := s.ringNext r
     let b := s.beginCmd r d 0
     let part := s.ringPart r
     let goes := ok = true ∧ s.ringGoes r = true ∧ s.descGoes r d = true
     (¬ goes → exec i s = .next s) ∧ Begun s b r d ∧
     (goes → descOk (s.ringMgmt r) d = false → ∃ t, exec i s = .next t ∧ t = { b with host := t.host } ∧ CmdEnds t r n stConfig) ∧
     (ok = true → s.ringGoes r = true → s.tileQuiet ((s.ringBase r + n.toNat % s.ringSize r * 128) / 4096) = true →
       (∀ w cl, s.readDesc r = (w, .ok (d, cl)) → (∀ k, cl ≠ .corrupt k) → s.descGoes r d = true →
         exec (.commandStart ring) s = exec i w) ∧
       (∀ w k, s.readDesc r = (w, .ok (d, .corrupt k)) → s.descGoes r d = true →
         ∃ t, exec (.commandStart ring) s = .next t ∧ CmdEnds t r n stCorrupt) ∧
       (∀ w st, s.readDesc r = (w, .error st) → st ≠ 0 → ∃ t, exec (.commandStart ring) s = .next t ∧ CmdEnds t r n st)) ∧
     (goes → descOk (s.ringMgmt r) d = true →
       (i = .fenceOrder ring d → exec i s = .next b) ∧
       (i = .fenceCommand ring d →
         (∀ l, s.findLaunch r (dTarget d) = some l → exec i s = .next (b.endLaunch l stFenced).settle) ∧
         (s.findLaunch r (dTarget d) = none → (∀ c, s.findColl r (dTarget d) = some c →
             ∃ t, exec i s = .next t ∧ CollEnded b t c stFenced 8) ∧
           (s.findColl r (dTarget d) = none → exec i s = .next b))) ∧
       (∀ dom, i = .fenceDomain ring d → fenceWho d = some dom →
         ((∃ j ∈ s.resets, domWithin dom j.dom = true) →
           ∃ t, exec i s = .next t ∧ t = { b with host := t.host } ∧ CmdEnds t r n stFenced) ∧
         ((∀ j ∈ s.resets, domWithin dom j.dom = false) → (∀ c, dom ≠ .core c) →
           ∃ t, exec i s = .next t ∧ (∃ j ∈ t.resets, j.dom = dom ∧ j.step = 3 ∧ j.start = s.now ∧ j.hold = false ∧ j.fail = false) ∧
             ∀ j ∈ t.resets, domWithin j.dom dom = true → j.dom = dom) ∧
         ((∀ j ∈ s.resets, domWithin dom j.dom = false) → ∀ c, dom = .core c → exec i s = .next (b.failCore c))) ∧
       (∀ w pa, i = .counters ring d → dsc d 0x18 8 < 64 → dsc d 0x20 4 ≠ 0 →
         b.translateTiles .engine part (ringCtx r).val (BitVec.ofNat 64 (dsc d 0x10 8)) true 1 = (w, .ok [pa]) →
         (match placeOf pa with | .hbm _ _ | .reservoir _ | .cluster _ _ => True | _ => False) →
         w.fencedPlace (placeOf pa) = false →
         ∃ t img, exec i s = .next t ∧ ArrivedFor w t [(pa / 4096, .whole img 0 0, .command r n)] ∧
           img.data = w.snapshot (dsc d 0x18 8) ∧ img.tcr.fmt = fmtUntyped ∧ ∃ c ∈ t.host.cmds, c.ring = r ∧ c.idx = n ∧ c.left = 1) ∧
       (i = .maint ring d → (∀ st, b.maintRefused d = some st → ∃ t, exec i s = .next t ∧ CmdEnds t r n st ∧ t.sys = b.sys) ∧
         (b.maintRefused d = none → exec i s = .next (b.startMaint r n part d))))) ∧
  (∀ (s w x : State) (ring : Fin 64) (d : BitVec 1024) (i : Instr) (a e : List Nat), (i, true) ∈ startRows ring d → dType d = 2 →
     s.ringGoes ring.val = true → s.descGoes ring.val d = true → descOk (s.ringMgmt ring.val) d = true →
     let r := ring.val
     let n := s.ringNext r
     let ctx := ringCtx r
     let dom := domContext ctx.val
     let fmt := BitVec.ofNat 8 (dsc d 0x11 1)
     let src : Word := BitVec.ofNat 64 (dsc d 0x18 8)
     let dst : Word := BitVec.ofNat 64 (dsc d 0x20 8)
     let die := dieOf (dsc d 0x12 1 / 2)
     let b := (s.beginCmd r d 0).modCmd r n fun c => { c with left := dsc d 0x14 4 }
     let tiles := fun (v : State) (ca : Word) wr => v.translateTiles .engine (s.ringPart r) ctx.val ca wr (dsc d 0x14 4)
     let open' := fun (v : State) (l : List Nat) => ∀ pa ∈ l, v.fencedPlace (placeOf pa) = false ∧
       match placeOf pa with | .hbm _ _ | .reservoir _ | .cluster _ _ => True | _ => False
     (∀ c, tiles b (if dsc d 0x10 1 = mvGet ∨ dsc d 0x10 1 = mvRdmaRead then dst else src)
         (dsc d 0x10 1 == mvGet || dsc d 0x10 1 == mvRdmaRead) = (w, .error c) →
       ∃ t, exec i s = .next t ∧ t = { w with host := t.host } ∧ CmdEnds t r n stConfig) ∧
     (i = .moveCopy ring d → tiles b src false = (w, .ok a) → tiles w dst true = (x, .ok e) → open' x a →
       ∃ t, exec i s = .next t ∧ ArrivedFor x t ((a.zip e).map fun m => (m.1 / 4096, .read none, .relay (.command r n) m.2 false))) ∧
     (i = .movePut ring d → tiles b src false = (w, .ok a) → open' w a →
       ∃ t, exec i s = .next t ∧ ArrivedFor w t (a.zipIdx.map fun m => (m.1 / 4096, .read none,
         .relayOut (.command r n) (movePacket 1 dst n (w.gen dom) m.2 (bitsAt d 144 1 == 1 && m.2 + 1 == dsc d 0x14 4)) dom ctx.val))) ∧
     (i = .moveGet ring d → tiles b dst true = (w, .ok e) →
       ∃ t, exec i s = .next t ∧ t = { w with fab := t.fab } ∧ Queued w t (e.zipIdx.map fun m => movePacket 2 src n (w.gen dom) m.2 false)) ∧
     (i = .rdmaWrite ring d → tiles b src false = (w, .ok a) → open' w a →
       (w.ethUp die = true → ∃ t l, exec i s = .next t ∧ l.length = a.length ∧
         t.out = w.out ++ [.rdma die (dsc d 0x28 3) (BitVec.ofNat 32 (dsc d 0x2C 4)) (dsc d 0x20 8) l]) ∧
       (w.ethUp die = false → ∃ t, exec i s = .next t ∧ CmdEnds t r n stLinkLoss ∧ t.out = w.out)) ∧
     (i = .rdmaRead ring d → tiles b dst true = (w, .ok e) → open' w e →
       (w.ethUp die = true → ∃ t l, exec i s = .next t ∧ l.length = e.length ∧
         ArrivedFor w t ((e.zip l).map fun m => (m.1 / 4096, .whole m.2 0 0, .command r n)) ∧ ∀ img ∈ l, img.tcr.fmt = fmt) ∧
       (w.ethUp die = false → ∃ t, exec i s = .next t ∧ CmdEnds t r n stLinkLoss ∧ t.mem = w.mem)))

/-- A COLLECTIVE is accepted with its slots still to be reserved, or refused with nothing reserved: CONFIG_INVALID for its fields,
its group or its ranges, LICENCE_DENIED for the far-axis transports that need the Standard tier, QUOTA_EXCEEDED for more slots than
the context may hold (R321, R325 to R327). A LAUNCH is refused with the status of the first check that it fails, or binds its image,
loads its local cores and sends their arrivals (R173, R198, R373). Choices of the model in it: log entries 23 and 66. -/
def Obligations.CollectivesAndLaunches : Prop :=
  ∀ (s : State) (ring : Fin 64) (d : BitVec 1024) (i : Instr), (i, true) ∈ startRows ring d →
    s.ringGoes ring.val = true → s.descGoes ring.val d = true → descOk (s.ringMgmt ring.val) d = true →
    let r := ring.val
    let n := s.ringNext r
    let ctx := ringCtx r
    let part := s.ringPart r
    let b := s.beginCmd r d 0
    let id := BitVec.ofNat 32 (dsc d 0x10 4)
    let refused := fun (w : State) (st : BitVec 8) cause => ∃ t, exec i s = .next t ∧ t = { w with regs := t.regs, host := t.host } ∧
      CmdEnds t r n st ∧ RegsKept w t [rColErr 0, rColErr 1] ∧
      ∀ k, t.fld (rColErr k) 56 8 = st.toNat ∧ t.fld (rColErr k) 48 4 = cause ∧ t.fld (rColErr k) 0 32 = id.toNat
    let ends := fun (w : State) (st : BitVec 8) => ∃ t, exec i s = .next t ∧ t = { w with host := t.host } ∧ CmdEnds t r n st
    (dType d = 3 →
      let pos := b.positions ctx.val (dsc d 0x18 1) (dsc d 0x19 1) (dsc d 0x1A 1) b.coord
      (pos = none ∨ collFieldsOk d = false → refused b stConfig 6) ∧
      (∀ p, pos = some p → collFieldsOk d = true →
        let c := b.newColl r n ctx part d p
        (∀ w, b.allRangesOk c c.present = (w, false) → refused w stConfig 6) ∧
        (∀ w, b.allRangesOk c c.present = (w, true) →
          let needs := (c.reduces = true ∧ c.far = 2) ∨ c.pipe = true
          (needs → w.tier ≠ 2 → refused w stLicence 8) ∧
          (¬ (needs ∧ w.tier ≠ 2) → w.slotQuota ctx.val < c.slots → refused w stQuota 7) ∧
          (¬ (needs ∧ w.tier ≠ 2) → c.slots ≤ w.slotQuota ctx.val →
            (∀ o ∈ w.colls, o.phase = .held → o.id.toNat ≤ id.toNat) →
            ∃ t, exec i s = .next t ∧ t = { w with colls := w.colls ++ [c], fab := { w.fab with ended := t.fab.ended } } ∧
              (c.epn, c.id) ∉ t.fab.ended ∧ c.phase = .waiting ∧ c.id = id ∧
              c.slots = (if dsc d 0x1C 2 = 0 then b.fld (rColCfg 0) 32 16 else dsc d 0x1C 2))))) ∧
    (dType d = 1 →
      (∀ w st, b.readImage part ctx.val (dsc d 0x10 8) = (w, .error st) → st ≠ 0 → ends w st) ∧
      (∀ w img, b.readImage part ctx.val (dsc d 0x10 8) = (w, .ok img) →
        let lacks := w.lacks (imageNeeds img)
        let me := (w.imageIndex img (coordOf (BitVec.ofNat 15 (dsc d 0x20 2)))).getD (leAt img 0x14 2)
        let k := dsc d 0x24 4
        (imageOk img = false → ends w stConfig) ∧ (imageOk img = true → lacks = true → ends w stLicence) ∧
        (imageOk img = true → lacks = false → w.boxFits img = false → ends w stConfig) ∧
        (∀ v ep, imageOk img = true → lacks = false → w.boxFits img = true →
          ((k = 0 ∧ v = w ∧ ep = []) ∨ (k ≠ 0 ∧ w.ctxBytes part ctx.val (dsc d 0x28 8) (4 * k) = (v, .ok ep))) →
          let l := newLaunch r n ctx part d img ep me
          let mine := (localEntries l).map Prod.snd
          let may := (∀ e ∈ mine, v.launchable e.core = true) ∧ epmapOk img ep k = true
          (¬ may → ends v stConfig) ∧
          (may → v.freeSlots.length < (groupsOf mine).length → ends v stQuota) ∧
          (may → (groupsOf mine).length ≤ v.freeSlots.length →
            exec i s = .next ((v.installRoutes img ctx (dsc d 0x20 2)).load img l).settle))))

/-- A request of a context's mailbox (R378 to R380, R550): one of a context that is not active is answered FENCED; MAP and UNMAP
change the context's tables and EPW_SET and EPW_CLR its windows, within its quota; QUERY answers what it uses. EPW_CLR is answered
once no packet accepted for the window is left (R35). A window that no accepted packet needs is idle, and the requests that wait for
it are answered. A write of VALID makes a window of a range that a window may hold, or takes one away (R34 to R36). Choices of the
model in it: log entries 1, 23, 50, 68 and 100. -/
def Obligations.MailboxesAndWindows : Prop :=
  (∀ (s : State) (port : Fin 2) (ctx : Fin 16) (q : BitVec 512),
     let k := mailKey ctx
     let m := s.setMailbox k { s.mailbox k with req := q, busy := true }
     let op := rq q 0 1
     let rows := [(1, Instr.mapPages port ctx q), (2, .unmapPages port ctx q), (3, .epwSet port ctx q), (4, .epwClr port ctx q),
       (5, .query port ctx q)]
     let active := s.rbit (rCtxStat ctx.val) 63 = true ∧ s.fld (rCtxStat ctx.val) 60 3 = 1
     let taken := s.pcieUp port = true ∧ s.phase = phReady ∧ (s.mailbox k).busy = false
     let says' := fun (i : Instr) st v => ∃ t, exec i s = .next t ∧ t = { s with host := t.host } ∧
       t.host = { s.host with mail := t.host.mail } ∧ Replied s t k q st v
     (∀ o i, (o, i) ∈ rows → ¬ (taken ∧ op = o) → exec i s = .next s) ∧
     (∀ i, (op, i) ∈ rows → taken → ¬ active → says' i stFenced 0) ∧
     (taken → active →
       (op = 5 → says' (.query port ctx q) (if rqClean q [0] then stOk else stConfig) (if rqClean q [0] then m.ctxUse ctx.val else 0)) ∧
       (∀ i, (op, i) ∈ rows → op ∈ [1, 2, 3] → rqPages q = none → says' i stConfig 0) ∧
       (∀ ca n (h : rq q 2 1 < 4), op = 1 → rqPages q = some (ca, n) → rq q 1 1 ≤ 1 → rqClean q ([0, 1, 2] ++ rqRange) = true →
         (∀ x ∈ m.mappedFor ctx.val, x.ca < ca + n → ca < x.ca + x.n → False) →
         let i := Instr.mapPages port ctx q
         let quota := if rq q 1 1 = 0 then s.fld (rCtxQuota ctx.val) 44 20 else s.fld (rCtxQuota ctx.val) 31 13
         let over' := quota < m.pagesUsed ctx.val (rq q 1 1 == 0) + n
         (over' → says' i stQuota 0) ∧
         (¬ over' → m.findPages (rq q 1 1 == 1) ⟨rq q 2 1, h⟩ n = none → says' i stQuota 1) ∧
         (∀ pa, ¬ over' → m.findPages (rq q 1 1 == 1) ⟨rq q 2 1, h⟩ n = some pa →
           (∀ x ∈ m.takenPages, x.1 + x.2 ≤ pa ∨ pa + n ≤ x.1) ∧
           (m.host.tables + (m.giveRoots ctx.val).tablesNeeded ((m.giveRoots ctx.val).roots ctx.val) ca n ≤ tablesMax →
             ∃ t, exec i s = .next t ∧ Replied s t k q stOk (BitVec.ofNat 64 (pa * 0x200000)) ∧
               t.mem = ((m.giveRoots ctx.val).mapAt ctx.val ca pa n).mem ∧
               RegsKept s t (allParts.map fun p => rPtRoot p ctx.val) ∧
               (∀ p : Fin 4, t.rbit (rPtRoot p ctx.val) 63 = true) ∧ t.parts = s.parts))) ∧
       (∀ ca n, op = 2 → rqPages q = some (ca, n) → rqClean q (0 :: rqRange) = true →
         let has := fun j => ∃ x ∈ m.mappedFor ctx.val, x.n = 1 ∧ x.ca = ca + j
         ((∃ j, j < n ∧ ¬ has j) → says' (.unmapPages port ctx q) stConfig 0) ∧
         ((∀ j, j < n → has j) → ∃ t, exec (.unmapPages port ctx q) s = .next t ∧ Replied s t k q stOk 0 ∧
           t.mem = ((List.range n).foldl (fun s j => s.clearPage ctx.val (ca + j)) m).mem ∧ t.regs = s.regs ∧
           (∀ p, ∀ e ∈ (t.part p).tlb, e.ctx ≠ ctx.val) ∧
           ∀ j, j < n → ∀ x ∈ m.mappedFor ctx.val, x.n = 1 → x.ca = ca + j → (ctx.val, x.pa, 1) ∈ t.host.freeing)) ∧
       (∀ ca n pa, op = 3 → rqPages q = some (ca, n) → contiguous (m.mappedFor ctx.val) ca n = some pa → rq q 1 1 ≤ 7 →
         rqClean q ([0, 1] ++ rqRange) = true → windowOk pa n = true →
         let i := Instr.epwSet port ctx q
         let over' := s.fld (rCtxQuota ctx.val) 25 6 < m.windowsUsed ctx.val + 1
         (over' → says' i stQuota 0) ∧ (¬ over' → m.freeWindow = none → says' i stQuota 1) ∧
         (∀ w, ¬ over' → m.freeWindow = some w → (1 ≤ w ∧ w < 64 ∧ s.winValid w = false ∧ w ∉ s.host.epwBusy) ∧
           ∃ t, exec i s = .next t ∧ t = { s with regs := t.regs, host := t.host } ∧ RegsKept s t [rEpwBase w, rEpwAttr w] ∧
             Replied s t k q stOk (BitVec.ofNat 64 w) ∧ (pa * 0x200000 < 2 ^ 48 → t.winBase w = pa * 0x200000) ∧
             t.winValid w = true ∧ t.winSize w = n * 0x200000 ∧ t.winCtx w = ctx.val ∧
             t.winWr w = bit (BitVec.ofNat 64 (rq q 1 1)) 1 ∧ t.winRd w = bit (BitVec.ofNat 64 (rq q 1 1)) 0)) ∧
       (op = 4 →
         let n := rq q 0x10 1
         let mine := n ≠ 0 ∧ n < 64 ∧ s.winValid n = true ∧ s.winCtx n = ctx.val ∧ rqClean q [0, 0x10] = true
         (¬ mine → says' (.epwClr port ctx q) stConfig 0) ∧
         (mine → ∃ t, exec (.epwClr port ctx q) s = .next t ∧ t = { s with regs := t.regs, host := t.host } ∧
           RegsKept s t [rEpwBase n] ∧ t.winValid n = false ∧ n ∈ t.host.epwBusy ∧ t.mailbox k = { s.mailbox k with req := q, busy := true })))) ∧
  (∀ (s : State) (src : RegSource) (n : Fin 64) (v : Word),
     (n.val ∉ s.host.epwBusy ∨ s.windowWork n.val = true → exec (.epwIdle n) s = .next s) ∧
     (n.val ∈ s.host.epwBusy → s.windowWork n.val = false → ∃ t, exec (.epwIdle n) s = .next t ∧
       t = { s with host := { s.host with mail := t.host.mail, epwBusy := s.host.epwBusy.filter fun x => x != n.val } } ∧
       ∀ k, k < 16 → t.mailbox k =
         if (s.mailbox k).busy = true ∧ rq (s.mailbox k).req 0 1 = 4 ∧ rq (s.mailbox k).req 0x10 1 = n.val then
           { s.mailbox k with busy := false, status := stOk, value := 0 }
         else s.mailbox k) ∧
     (s.accepts src (rEpwBase n.val) = true →
       (s.winValid n.val = true → bit v 63 = true → exec (.epwValidate src n v) s = .next s) ∧
       (s.winValid n.val = true → bit v 63 = false → ∃ t, exec (.epwValidate src n v) s = .next t ∧
         t = { s with regs := t.regs, host := t.host } ∧ RegsKept s t [rEpwBase n.val] ∧ t.winValid n.val = false ∧
         t.winBase n.val = s.winBase n.val ∧ n.val ∈ t.host.epwBusy) ∧
       (s.winValid n.val = false → bit v 63 = true → windowOk (fieldN v 21 27) (s.fld (rEpwAttr n.val) 0 20) = false →
         exec (.epwValidate src n v) s = .next s) ∧
       (s.winValid n.val = false → (bit v 63 = false ∨ windowOk (fieldN v 21 27) (s.fld (rEpwAttr n.val) 0 20) = true) →
         ∃ t, exec (.epwValidate src n v) s = .next t ∧ OnlyRegs s t [rEpwBase n.val] ∧ t.winValid n.val = bit v 63 ∧
           t.winBase n.val = fieldN v 21 27 * 0x200000)))

/-- The state of a PCIe port's link (R362, R532, Table 10.12); BAR2 in its bounds reaches package memory, and beyond them reads 0
and counts (R358, R359); a read follows the posted writes of its function (R258); a remote initiator reaches registered memory only (R382); a function reset fences its context, the reset of
the PF the rings of its port (R361, R381). Choices of the model in it: log entries 1, 8, 35, 44 and 51. -/
def Obligations.HostLinks : Prop :=
  ∀ (s : State) (port : Fin 2) (ctx : Fin 16),
    (∃ t, exec (.pcieLinkDown port) s = .next t ∧ OnlyRegs s t [rHstPcie port] ∧ t.reg (rHstPcie port) = 0 ∧ t.pcieUp port = false) ∧
    (∃ t, exec (.perst port) s = .next t ∧ OnlyRegs s t [rHstPcie port, rHstHerr port, rHstAper port] ∧ t.pcieUp port = false ∧
      t.reg (rHstHerr port) = 0 ∧ t.reg (rHstAper port) = 0) ∧
    (∀ rate width, exec (.pcieLinkUp port rate width) s = .next s ∨ (2 ≤ s.phase ∧ ∃ t,
      exec (.pcieLinkUp port rate width) s = .next t ∧ OnlyRegs s t [rHstPcie port] ∧ t.pcieUp port = true ∧
      t.fld (rHstPcie port) 56 4 = rate.toNat ∧ t.fld (rHstPcie port) 51 5 = width.toNat)) ∧
    (∀ rate width, 2 ≤ s.phase → port.val ∉ s.host.portsHeld → 1 ≤ rate.toNat → rate.toNat ≤ 6 → width.toNat ∈ [1, 4, 8, 16] →
      ∃ t, exec (.pcieLinkUp port rate width) s = .next t ∧ t.pcieUp port = true) ∧
    (∀ fn write (off : BitVec 32) len data, let i := Instr.bar2Access port fn write off len data
      let zeros := if write then [] else [Output.readData port (List.replicate len 0)]
      let fits := len % 4 = 0 ∧ off.toNat % 4 = 0 ∧ 4 ≤ len ∧ len ≤ 4096 ∧ (write = true → data.length = len)
      (s.pcieUp port = false → exec i s = .next s) ∧
      (s.pcieUp port = true → ¬ fits → ∃ t, exec i s = .next t ∧ OnlyRegs s t [rHstHerr port] ∧
        t.fld (rHstHerr port) 0 16 = min (s.fld (rHstHerr port) 0 16 + 1) 0xFFFF) ∧
      (s.pcieUp port = true → fits → s.barServed fn = false → exec i s = .next { s with out := s.out ++ zeros }) ∧
      (s.pcieUp port = true → fits → s.barServed fn = true → s.barAddr port fn off.toNat len = none →
        ∃ t, exec i s = .next t ∧ t = { s with regs := t.regs, out := s.out ++ zeros } ∧ RegsKept s t [rHstHerr port] ∧
          t.fld (rHstHerr port) 16 16 = min (s.fld (rHstHerr port) 16 16 + 1) 0xFFFF) ∧
      (∀ pa, s.pcieUp port = true → fits → s.barServed fn = true → s.barAddr port fn off.toNat len = some pa →
        (∀ e ∈ pieces pa len, s.fencedPlace (placeOf (pa + e.1)) = false ∧ (placeOf (pa + e.1)).stored = true) →
        (write = false → (∃ o ∈ s.mem.ops, o.who = .bar port fn) → exec i s = .next s) ∧
        (write = false → (∀ o ∈ s.mem.ops, o.who ≠ .bar port fn) → (∀ e ∈ pieces pa len, s.mem.opsOn ((pa + e.1) / 4096) = [] ∧ s.failedStack (placeOf (pa + e.1)) = false) →
          ∃ t, exec i s = .next t ∧ t = { s with cnt := t.cnt, out := s.out ++ [.readData port (s.mem.bytes pa len)] }) ∧
        (write = true → ∃ t, exec i s = .next t ∧ ArrivedFor s t ((pieces pa len).map fun e => ((pa + e.1) / 4096,
          .part (rowChanges ((pa + e.1) % 4096) e.2 (leNat ((data.drop e.1).take e.2))) 0, .bar port fn))))) ∧
    (∀ write rkey (addr : BitVec 48) tiles data, let i := Instr.roceRequest port write rkey addr tiles data
      let g := s.host.regions.find? fun g => g.key == rkey
      (s.ethUp port = false ∨ g = none → exec i s = .next s) ∧
      (∀ x, s.ethUp port = true → g = some x → x.holds addr.toNat tiles = false → exec i s = .next s) ∧
      (∀ x, s.ethUp port = true → g = some x → x.holds addr.toNat tiles = true →
        (∀ k, k < tiles → let pl := placeOf (x.base + addr.toNat + 4096 * k); pl.stored = true ∧ s.fencedPlace pl = false) →
        (write = true → data.length = tiles → ∃ (t : State) (l : List TileImg), exec i s = .next t ∧ l.length = tiles ∧ l.map TileImg.data = data ∧
          (∀ img ∈ l, img.tcr.fmt = x.fmt ∧ img.tcr.gen = 1) ∧
          ArrivedFor s t (l.zipIdx.map fun e => ((x.base + addr.toNat + 4096 * e.2) / 4096, .whole e.1 0 0, .posted))) ∧
        (write = false → ∃ t l, exec i s = .next t ∧ l.length = tiles ∧ t.out = s.out ++ [.rdma port 0 rkey addr.toNat l]))) ∧
    (s.pcieUp port = false → exec (.vfFlr port ctx) s = .next s ∧ exec (.pfFlr port) s = .next s) ∧
    (s.pcieUp port = true → ∃ t, exec (.pfFlr port) s = .next t ∧ t.reg (rHstHerr port) = 0 ∧ t.reg (rHstAper port) = 0) ∧
    (s.pcieUp port = true → s.resets = [] → ∃ t, exec (.vfFlr port ctx) s = .next t ∧
      (∃ j, t.resets = [j] ∧ j.dom = .context ctx ∧ j.step = 3 ∧ j.start = s.now) ∧ t.fld (rCtxStat ctx.val) 60 3 = 2 ∧
      t.fld (rCtxStat ctx.val) 0 16 = min (s.fld (rCtxStat ctx.val) 0 16 + 1) 0xFFFF ∧
      ∀ r, r / 4 = ctx.val → s.ringEn r = true → r ∈ t.host.halted) ∧
    (∀ src v, s.accepts src (rCtxStat ctx.val) = true → let i := Instr.contextDisable src ctx v
      (bit v 63 = true → s.fld (rCtxStat ctx.val) 60 3 = 0 → ∃ t, exec i s = .next t ∧ OnlyRegs s t [rCtxStat ctx.val] ∧
        t.rbit (rCtxStat ctx.val) 63 = true ∧ t.fld (rCtxStat ctx.val) 60 3 = 1) ∧
      (bit v 63 = true → s.fld (rCtxStat ctx.val) 60 3 ≠ 0 → exec i s = .next s) ∧
      (bit v 63 = false → s.rbit (rCtxStat ctx.val) 63 = false → exec i s = .next s) ∧
      (bit v 63 = false → s.rbit (rCtxStat ctx.val) 63 = true → s.resets = [] → ∃ t, exec i s = .next t ∧
        (∃ j, t.resets = [j] ∧ j.dom = .context ctx ∧ j.step = 3) ∧ t.rbit (rCtxStat ctx.val) 63 = false ∧
        t.fld (rCtxStat ctx.val) 60 3 = 2))

/-- The Kotan instructions (R383 to R385): modes, the doorbell, fabric time, the check of a tile, schedule groups, and the release
and acquire at a scope. `goes` is that the partition's application cores run; while they do not, and while a release waits, nothing
changes. Choices of the model in it: log entries 1, 57, 58, 59 and 88. -/
def Obligations.Kotan : Prop :=
  ∀ (s : State) (a : AppCore) (pr : Priv) (rd : BitVec 5) (x y : Word) (sc : BitVec 3),
    let g := fieldN x 0 6
    let monitor := pr = .m ∨ pr = .hs
    let gated := [Instr.ktDbell a pr rd x y, .ktTchk a pr rd x, .ktSgrd a pr rd x, .ktSgfen a pr x]
    let all := gated ++ [.ktFtc a pr rd, .ktSrel a pr sc x y, .ktLacq a pr sc rd x]
    let free := fun (dom : Nat) (sc : Nat) => ∀ o ∈ s.mem.ops, o.dom = dom → inScope sc ⟨a.p, 0, 0⟩ (placeOf (o.tile * 4096)) = false
    let pl := placeOf x.toNat
    let quiet := s.mem.opsOn (x.toNat / 4096) = []
    let only := fun (t : State) => t = { s with host := t.host }
    let legal := sc = 2 ∨ sc = 3 ∨ sc = 4
    (s.appRuns a.p = false → ∀ i ∈ all, exec i s = .next s) ∧
    (s.appRuns a.p = true →
      (∀ i ∈ gated, ¬ monitor → ∃ t, exec i s = .next t ∧ only t ∧ Trapped s t a (if pr = .u then .illegal else .virtual)) ∧
      (∃ t, exec (.ktFtc a pr rd) s = .next t ∧ only t ∧ WroteX s t a rd s.ftc) ∧
      (monitor → ∃ t, exec (.ktSgrd a pr rd x) s = .next t ∧ only t ∧
        WroteX s t a rd (if s.rbit (rSgCfg g) 63 then s.reg (rSgStat g) else 0)) ∧
      (monitor → s.rbit (rSgCfg g) 63 = true → exec (.ktSgfen a pr x) s = .next ((s.fenceGroup g stFenced).noX a)) ∧
      (monitor → s.rbit (rSgCfg g) 63 = false → ∃ t, exec (.ktSgfen a pr x) s = .next t ∧ only t ∧
        (t.app a).trap = none ∧ (t.app a).x = (s.app a).x) ∧
      (monitor → free (domPartition a.p) 3 →
        let tail : BitVec 32 := field y 0 32
        (s.doorOk .control g tail = true → ∃ t, exec (.ktDbell a pr rd x y) s = .next t ∧
          t = { s with regs := t.regs, host := t.host } ∧ RegsKept s t [rRingIdx g] ∧ t.ringTail g = tail ∧ WroteX s t a rd 0) ∧
        (s.doorOk .control g tail = false → ∃ t, exec (.ktDbell a pr rd x y) s = .next t ∧
          t = { s with regs := t.regs, host := t.host } ∧ RegsKept s t [rHstHerr (s.doorDie .control g)] ∧ WroteX s t a rd 1)) ∧
      (monitor → ¬ free (domPartition a.p) 3 → exec (.ktDbell a pr rd x y) s = .next s) ∧
      (monitor → tileAt x.toNat = false → ∃ t, exec (.ktTchk a pr rd x) s = .next t ∧ only t ∧ Trapped s t a .loadFault) ∧
      (monitor → tileAt x.toNat = true → quiet → s.fencedPlace pl = false → s.failedStack pl = false → s.mem.wholeOpen (x.toNat / 4096) = false →
        let img := s.mem.serve (x.toNat / 4096)
        ∃ t, exec (.ktTchk a pr rd x) s = .next t ∧ t = { s with host := t.host, cnt := t.cnt } ∧
          WroteX s t a rd (tchkValue (classifyTile img) img.tcr.gen)) ∧
      (¬ legal → ∀ i ∈ [Instr.ktSrel a pr sc x y, .ktLacq a pr sc rd x],
        ∃ t, exec i s = .next t ∧ only t ∧ Trapped s t a .illegal) ∧
      (legal → ¬ free (domPartition a.p) sc.toNat → exec (.ktSrel a pr sc x y) s = .next s) ∧
      (legal → free (domPartition a.p) sc.toNat → x.toNat % 8 ≠ 0 → pl.stored = true →
        ∃ t, exec (.ktSrel a pr sc x y) s = .next t ∧ only t ∧ Trapped s t a .storeMisaligned) ∧
      (legal → free (domPartition a.p) sc.toNat → x.toNat % 8 = 0 → pl.stored = true → s.fencedPlace pl = false →
        ∃ t, exec (.ktSrel a pr sc x y) s = .next t ∧ (t.app a).trap = none ∧ (t.app a).x = (s.app a).x ∧
          ArrivedFor s t [(x.toNat / 4096, .part (rowChanges (x.toNat % 4096) 8 y.toNat) 0, .posted)]) ∧
      (legal → x.toNat % 8 ≠ 0 → pl.stored = true →
        ∃ t, exec (.ktLacq a pr sc rd x) s = .next t ∧ only t ∧ Trapped s t a .loadMisaligned) ∧
      (legal → x.toNat % 8 = 0 → pl.stored = true → quiet → s.fencedPlace pl = false → s.failedStack pl = false →
        ∃ t, exec (.ktLacq a pr sc rd x) s = .next t ∧ t = { s with host := t.host, cnt := t.cnt } ∧
          WroteX s t a rd (BitVec.ofNat 64 (s.mem.num x.toNat 8))))

/-! ## Power and thermal -/

/-- The load envelope (R391, R392, R400, R413): a commit is taken at the next governor step and counted, or refused with ERR and
nothing else; EMERG steps H down to the larger of its level and floor power, and the hoist cap with it. Only the tray controller,
the fabric manager and the management cores may write it. A governor step (R395, R396, R398, R399, R406, R407): H moves to its goal
within the ramps and the hoist cap, down at once under EMERG, never up without the heartbeat; with demand above H VCORE falls a step
where the floors allow it; the hottest core above THROT_T alone is slowed, and each stack above HBM_T admits seven eighths. Before
100 µs are over, or while the governor has no control, nothing changes. Choices of the model in it: log entries 1, 19 and 74. -/
def Obligations.EnvelopeAndGovernor : Prop :=
  (∀ (s : State) (src : RegSource) (v : Word) (i : Instr), i ∈ [Instr.commit src v, .emerg src v] →
     let e := s.staged
     let g := s.sys.gov
     let old := g.next.getD g.env
     let raises := old.ceil < e.ceil ∨ old.pfloor < e.pfloor ∨ old.target < e.target ∨ old.up < e.up ∨ old.down < e.down ∨
       e.slots ≠ old.slots ∨ e.period ≠ old.period ∨ e.len ≠ old.len ∨ e.hoistAt ≠ old.hoistAt
     let lost := s.rbit rPwrAlert 0 = true
     let lvl := fieldN v 32 16 * 10000
     let fp := s.fld rPwrStat 0 16 * 10000
     let writer := fun (t : State) => (src = .i3c ∧ t.fld rPwrEnvCtl 60 2 = 1) ∨ (src = .fabricMgr ∧ t.fld rPwrEnvCtl 60 2 = 2) ∨
       (src = .mgmtCore ∧ t.fld rPwrEnvCtl 60 2 = 3)
     (s.accepts src rPwrEnvCtl = false → exec i s = .next s) ∧
     (s.accepts src rPwrEnvCtl = true → src = .i3c ∨ src = .fabricMgr ∨ src = .mgmtCore) ∧
     (s.accepts src rPwrEnvCtl = true → bit v 59 = false → bit v 63 = true →
       (EnvelopeOk e → ¬ (lost ∧ raises) → ∃ t, exec i s = .next t ∧ GovOnly s t [rPwrEnvCtl] ∧
         t.sys.gov = { g with next := some e } ∧ t.rbit rPwrEnvCtl 62 = false ∧ writer t ∧
         t.fld rPwrEnvCtl 0 32 = (s.fld rPwrEnvCtl 0 32 + 1) % 2 ^ 32 ∧ t.fld rPwrEnvCtl 32 16 = fieldN v 32 16) ∧
       (¬ EnvelopeOk e ∨ (lost ∧ raises) → ∃ t, exec i s = .next t ∧ OnlyRegs s t [rPwrEnvCtl] ∧ t.rbit rPwrEnvCtl 62 = true ∧
         t.fld rPwrEnvCtl 0 32 = s.fld rPwrEnvCtl 0 32 ∧ t.fld rPwrEnvCtl 60 2 = s.fld rPwrEnvCtl 60 2)) ∧
     (s.accepts src rPwrEnvCtl = true → bit v 59 = true → bit v 63 = false →
       ∃ t, exec i s = .next t ∧ GovOnly s t [rPwrEnvCtl, rPwrStat, rPwrAlert] ∧ t.rbit rPwrEnvCtl 59 = true ∧
         t.sys.gov = { g with h := min g.h (max lvl fp), cap := min g.cap (min g.h (max lvl fp)) } ∧
         Alerts s t (if lvl < fp then [8] else []) ∧ t.reg rPwrEnvCtl &&& 0x70000000FFFFFFFF = s.reg rPwrEnvCtl &&& 0x70000000FFFFFFFF)) ∧
  (∀ (s : State) (i : GovInputs),
     let g := s.sys.gov
     let e := g.next.getD g.env
     let cap := if g.next.isSome ∧ e.slots = true ∧ g.env.slots = false then g.h else g.cap
     let k := s.ftc.toNat - e.hoistAt.toNat
     let isOpen := e.slots = true ∧ e.hoistAt.toNat ≤ s.ftc.toNat ∧
       (if e.period = 0 then k else k % (e.period * 1000000)) < e.len * 1000000
     let lost := s.rbit rPwrAlert 0 = true
     let emerg := s.rbit rPwrEnvCtl 59 = true
     let lvl := s.fld rPwrEnvCtl 32 16
     let exe := fun (f : State → Prop) => ∃ t, exec (.governorStep i) s = .next t ∧ f t
     let goal := fun (t : State) => min (max (max (peakOf t.sys.gov.peaks) e.target) e.pfloor) e.ceil * 10000
     let lim := if e.slots = true ∧ ¬ isOpen then cap else e.ceil * 10000
     let due := s.governs = true ∧ g.stepAt + 100000 ≤ s.now
     (¬ due → exec (.governorStep i) s = .next s) ∧
     (due → exe fun t =>
       t = { s with
         cores := t.cores, parts := t.parts, regs := t.regs, freeCtr := t.freeCtr, out := t.out
         sys := { s.sys with gov := t.sys.gov } } ∧
       t.sys.gov = { g with
         env := e, next := none, stepAt := s.now, h := t.sys.gov.h, cap := t.sys.gov.cap, peaks := t.sys.gov.peaks } ∧
       (s.now, i.demand) ∈ t.sys.gov.peaks ∧ (∀ x ∈ t.sys.gov.peaks, x = (s.now, i.demand) ∨
         (x ∈ g.peaks ∧ i.demand < x.2 ∧ s.now < x.1 + e.win * 1000000)) ∧
       (∀ x ∈ g.peaks, s.now < x.1 + e.win * 1000000 → x.2 ≤ peakOf t.sys.gov.peaks) ∧
       (emerg → t.sys.gov.h = min g.h (max (lvl * 10000) (i.floorp * 10000))) ∧
       (¬ emerg → g.h < goal t → ¬ lost →
         t.sys.gov.h = max g.h (min (min (goal t) lim) (g.h + min e.up i.slopeUp))) ∧
       (¬ emerg → g.h < goal t → lost → t.sys.gov.h = g.h) ∧
       (¬ emerg → goal t < g.h → t.sys.gov.h = max (goal t) (g.h - min e.down i.slopeDown)) ∧
       (isOpen → t.sys.gov.cap = t.sys.gov.h) ∧ (¬ isOpen → ¬ emerg → t.sys.gov.cap = cap) ∧
       (t.sys.gov.h < 2 ^ 16 * 10000 → t.fld rPwrStat 48 16 = t.sys.gov.h / 10000) ∧ t.fld rPwrStat 32 16 = i.power % 2 ^ 16 ∧
       t.fld rPwrStat 16 16 = i.demand % 2 ^ 16 ∧ t.fld rPwrStat 0 16 = i.floorp % 2 ^ 16 ∧
       (t.sys.gov.h < i.demand * 10000 → ∀ p : Fin 4, s.fld (rPwrRail p.val) 0 4 ≠ 3 → t.setpoint p.val =
         if p ∈ i.vcoreAtFloor ∨ s.setpoint p.val < 605 then s.setpoint p.val else s.setpoint p.val - 5) ∧
       (i.demand * 10000 ≤ t.sys.gov.h → ∀ p : Fin 4, t.setpoint p.val = s.setpoint p.val ∨ t.setpoint p.val = s.setpoint p.val + 5) ∧
       (∀ c, (∀ x, hottest i.corePred ≠ some (c, x)) → (t.core c).beatLim = (s.core c).beatLim) ∧
       (∀ c x, hottest i.corePred = some (c, x) → s.throtT < x → (t.core c).beatLim = (s.core c).slower.beatLim) ∧
       (∀ c, (t.core c).st = (s.core c).st ∧ FilesKept (s.core c) (t.core c)) ∧
       (∀ (p : Fin 4) (n : Fin 6), (∀ x, ((p, n), x) ∈ i.hbmPred → x ≤ s.hbmT) →
         mget (fun _ => 0) (t.part p).hbmCut n.val = mget (fun _ => 0) (s.part p).hbmCut n.val) ∧
       (∀ (p : Fin 4) (n : Fin 6) x, i.hbmPred = [((p, n), x)] → s.hbmT < x → mget (fun _ => 0) (s.part p).hbmCut n.val ≤ fullRate →
         let rate := fullRate - mget (fun _ => 0) (s.part p).hbmCut n.val
         fullRate - mget (fun _ => 0) (t.part p).hbmCut n.val = max (rate * 7 / 8) (fullRate / 8))))

/-- Limits rise again as units cool (R406, R407); AVSBus readings and faults (R389, R390); the heartbeat (R413); coolant, leaks and
sensors (R410 to R412); the temperature of the stacks. Choices of the model in it: log entries 1 and 53. -/
def Obligations.Sensors : Prop :=
  ∀ (s : State) (inp : GovInputs) (src : RegSource) (v : Word) (volts amps : List (BitVec 16)) (rail : Fin 9) (ohms : BitVec 32)
      (n : Fin 160) (rd md : BitVec 8) (p : Fin 4) (temps : List (BitVec 8)),
    let g := s.sys.gov
    (s.governs = true → g.relAt + 1000000 ≤ s.now → (inp.corePred.map Prod.fst).Nodup → ∃ t,
      exec (.throttleRelease inp) s = .next t ∧
      t = { s with cores := t.cores, parts := t.parts, regs := t.regs, sys := { s.sys with gov := { g with relAt := s.now } } } ∧
      RegsKept s t [rThmStat] ∧ ∀ c, let lim := fieldN (s.core c).beatLim 0 12
        let cool := (∃ x, (c, x) ∈ inp.corePred ∧ x + 2 < s.throtT) ∧ lim ≠ 0
        (cool → (t.core c).beatLim = setField (s.core c).beatLim 0 12 (if 2300 < lim + 50 then 0 else lim + 50)) ∧
        (¬ cool → (t.core c).beatLim = (s.core c).beatLim)) ∧
    (s.governs = false ∨ s.now < g.relAt + 1000000 → exec (.throttleRelease inp) s = .next s) ∧
    (s.phase ≠ phPor → g.avsAt + 100000 ≤ s.now → ∃ t, exec (.avsRead volts amps) s = .next t ∧
      GovOnly s t ((List.range 9).map rPwrRail) ∧ t.sys.gov = { g with avsAt := s.now } ∧
      ∀ k, k < 9 → (s.fld (rPwrRail k) 0 4 = 3 → t.reg (rPwrRail k) = s.reg (rPwrRail k)) ∧
        (s.fld (rPwrRail k) 0 4 ≠ 3 → t.fld (rPwrRail k) 32 16 = (volts.getD k 0).toNat ∧
          t.fld (rPwrRail k) 16 16 = (amps.getD k 0).toNat ∧ t.fld (rPwrRail k) 48 16 = s.fld (rPwrRail k) 48 16)) ∧
    (∃ t, exec (.avsFault rail) s = .next t ∧ OnlyRegs s t [rPwrRail rail.val, rPwrAlert] ∧ t.fld (rPwrRail rail.val) 0 4 = 3 ∧
      Alerts s t [6] ∧ t.fld (rPwrRail rail.val) 48 16 = s.fld (rPwrRail rail.val) 48 16) ∧
    (s.accepts src rPwrHb = true → bit v 0 = true → ∃ t, exec (.beat src v) s = .next t ∧ GovOnly s t [rPwrAlert] ∧
      t.sys.gov = { g with hbAt := s.now } ∧ t.rbit rPwrAlert 0 = false) ∧
    (s.accepts src rPwrHb = true → src = .i3c) ∧ (s.accepts src rThmCool = true → src = .i3c ∨ src = .mgmtCore) ∧
    (s.phase = phReady → g.hbAt + 2000000000 ≤ s.now →
      ∃ t, exec .heartbeatLost s = .next t ∧ OnlyRegs s t [rPwrAlert] ∧ Alerts s t [0]) ∧
    (s.now < g.hbAt + 2000000000 → exec .heartbeatLost s = .next s) ∧
    (s.accepts src rThmCool = true → ∃ t, exec (.coolantWrite src v) s = .next t ∧ GovOnly s t [rThmCool] ∧
      t.sys.gov = { g with coolAt := some s.now, coolStale := false } ∧ t.coolant = (fieldN v 56 8, fieldN v 32 16) ∧
      t.fld rThmCool 48 8 = fieldN v 48 8 ∧ t.coolAge = 0) ∧
    (1000 < s.coolAge → ∃ t, exec .coolantAgeExpiry s = .next t ∧ GovOnly s t [] ∧ t.coolant = (45, 30)) ∧
    (s.coolAge ≤ 1000 → exec .coolantAgeExpiry s = .next s) ∧
    (let st := if ohms.toNat < 100 then 3 else if ohms.toNat < 5000 then 1 else if ohms.toNat ≤ 20000 then 0 else 2
     let since := if g.leak = st then g.leakAt else s.now
     let shown := if since + 30000000 ≤ s.now then st else s.fld rThmLeak 60 4
     ∃ t, exec (.leakSample ohms) s = .next t ∧ GovOnly s t [rThmLeak, rPwrAlert] ∧
      t.sys.gov = { g with leak := st, leakAt := since } ∧ t.fld rThmLeak 0 32 = ohms.toNat ∧ t.fld rThmLeak 60 4 = shown ∧
      Alerts s t (if shown = 1 then [2] else if shown = 0 then [] else [3])) ∧
    (∀ ans neg, let i := Instr.sensorSuspect n ans rd neg md
      let r := rThmSens n.val
      let failed := ans = false ∨ neg = true ∨ 150 < rd.toNat
      let low := ¬ failed ∧ rd.toNat + 8 < md.toNat
      let first := mget (fun _ => 0) g.low n.val
      ∃ t, exec i s = .next t ∧ GovOnly s t [r, rPwrAlert] ∧ t.fld r 48 8 = md.toNat ∧
        (failed → t.fld r 46 2 = max 2 (s.fld r 46 2) ∧ Alerts s t [4]) ∧
        (¬ failed → t.fld r 56 8 = rd.toNat) ∧
        (low → first = 0 → t.fld r 46 2 = s.fld r 46 2 ∧ Alerts s t []) ∧
        (low → first ≠ 0 → first - 1 + 50000000 ≤ s.now → t.fld r 46 2 = max 1 (s.fld r 46 2) ∧ Alerts s t [4]) ∧
        (¬ failed → ¬ low → t.fld r 46 2 = s.fld r 46 2 ∧ Alerts s t [] ∧ mget (fun _ => 0) t.sys.gov.low n.val = 0)) ∧
    (∃ t, exec (.hbmTempRead p temps) s = .next t ∧ OnlyRegs s t ((List.range 6).map (rHbmStat p)) ∧
      ∀ k x, k < 6 → temps[k]? = some x → t.fld (rHbmStat p k) 56 8 = x.toNat ∧ t.fld (rHbmStat p k) 0 4 = s.fld (rHbmStat p k) 0 4)

/-- Shutdown, isolation and the loss of rails (R388, R393, R409, R414, R418, Table 11.1). Choices of the model in it: log entries 1,
54, 75, 76 and 77. -/
def Obligations.PowerStops : Prop :=
  ∀ (s : State) (sensor : Fin 160) (temp unc : BitVec 8),
    (∀ model, s.sys.pins.shut = false → s.phase ≠ phPor →
      let trips := if model then 118 + unc.toNat < temp.toNat else 120 ≤ temp.toNat
      (trips → ∃ t, exec (.thermalShutdown model sensor temp unc) s = .next t ∧ Halted s t ∧ t.sys.pins.shut = true ∧
        (s.sys.boot.lost.contains 11 = false → t.thermTrip = true) ∧
        t.rbit rThmTrip 63 = true ∧ t.fld rThmTrip 60 3 = (if model then 2 else 1) ∧
        (model = false → t.fld rThmTrip 48 8 = sensor.val) ∧ t.fld rThmTrip 40 8 = temp.toNat ∧
        t.fld rThmTrip 0 32 = s.fld rObsPtc 0 32 ∧ t.now = s.now) ∧
      (¬ trips → exec (.thermalShutdown model sensor temp unc) s = .next s)) ∧
    (s.sys.pins.isolated = false → ∃ t, exec (.isolateN true) s = .next t ∧ Halted s t ∧ t.sys.pins.isolated = true ∧
      t.sys.pins.isolate = true ∧ ∀ n, n < 36 → (t.port n).replay = [] ∧ t.portState n = 0 ∧ t.fld (rPort n) 50 4 = 8) ∧
    (exec (.isolateN false) s = .next { s with sys := { s.sys with pins := { s.sys.pins with isolate := false } } }) ∧
    (∀ r : Fin 12, (r.val ∈ s.sys.boot.lost → exec (.railLoss r true) s = .next s) ∧
      (r.val ∉ s.sys.boot.lost → exec (.railLoss r false) s = .next s) ∧
      (r.val ∉ s.sys.boot.lost → (∃ k, k < 11 ∧ k ≠ r.val ∧ k ∉ s.sys.boot.lost) → ∃ t, exec (.railLoss r true) s = .next t ∧
        t.sys.boot.lost = r.val :: s.sys.boot.lost ∧ (r.val ≠ 11 → t.fld (rPwrRail r.val) 0 4 = 2 ∧ t.rbit rPwrAlert 5 = true) ∧
        (s.phase = phReady → r.val < 4 → (t.part (partNo r.val)).railLost = true) ∧
        (s.phase = phReady → 5 ≤ r.val → r.val ≤ 8 → (t.part (partNo (r.val - 5))).railLost = true) ∧
        (s.phase = phReady → r.val = 4 ∨ r.val = 9 → t.sys.pins.stopped = true ∧ (∀ p : Fin 4, (t.part p).fenced = true) ∧
          ∀ n, n < 36 → t.portUp n = false) ∧
        (r.val = 10 → (∀ n, n < 36 → t.portUp n = false) ∧ t.cores = s.cores ∧ t.phase = s.phase) ∧
        (s.phase = phReady → r.val = 11 → t.phase = phPor) ∧
        (s.phase ≠ phReady → s.phase ≠ phPor → r.val ≠ 10 → t.phase = phPor)) ∧
      (r.val ∈ s.sys.boot.lost → ∃ t, exec (.railLoss r false) s = .next t ∧ r.val ∉ t.sys.boot.lost ∧
        t.fld (rPwrRail r.val) 0 4 = 1 ∧ t.sys.boot.since = s.now)) ∧
    (∃ t, exec .vauxApply s = .next t ∧ t.phase = phPor ∧ t.sys.nv = s.sys.nv ∧ t.sys.fw = s.sys.fw ∧ t.now = s.now ∧
      t.pending = s.pending ∧ t.cores = [] ∧ t.colls = [] ∧ t.launches = [] ∧ t.host = .reset ∧ t.sys.pins.isolated = false ∧
      t.sys.pins.shut = false ∧ t.fld rPwrEnvLim 48 16 = 4000 ∧ t.fld rPwrEnvLim 32 16 = 550 ∧ t.fld rPwrEnvRamp 48 16 = 400 ∧
      t.fld rPwrEnvRamp 32 16 = 400 ∧ t.rbit rPwrEnvHoist 63 = false ∧ t.reg rMgtLc = s.reg rMgtLc ∧ t.reg rMgtLic = s.reg rMgtLic)

/-! ## Bring-up -/

/-- The phases follow one another as Table 12.1 orders them, and bring-up ends in WAIT_CONFIG or FAILED as Tables 12.2 and 12.10 say
(R418 to R423, R427, R442). PKG_RESET_N takes the package back to POR and ends a shutdown or an isolation (R414, R423). Choices of
the model in it: log entries 1, 81 and 82. -/
def Obligations.BringUp : Prop :=
  ∀ (s : State) (ref a b : Bool) (links : List (Fin 4)) (hbm : List (Fin 4 × Fin 6)) (sram : List (Fin 4)),
    let at' := fun ph => s.goesOn ph = true
    let may := s.phase = 0 ∧ s.sys.boot.lost = [] ∧ s.sys.pins.reset = false ∧ s.sys.pins.isolate = false ∧
      s.sys.boot.since + 10000000 ≤ s.now
    let shows := fun (t : State) ph cause => t.phase = ph ∧ t.fld rMgtBoot 56 4 = cause
    (may → ∃ t, exec (.porExit ref a b) s = .next t ∧ shows t 1 (if a = true ∨ b = true then 0 else 9) ∧
      t.rbit rMgtBoot 50 = (!a && b) ∧ t.sys.boot.verified = (a || b) ∧ t.mem = s.mem) ∧
    (¬ may → s.phase ≠ 1 → exec (.porExit ref a b) s = .next s) ∧
    (at' 1 → s.sys.boot.verified = true → s.fld rMgtBoot 56 4 = 0 →
      (a = false → b = false → s.resets = [] → ∃ t, exec (.mgmtPhaseEnd a b) s = .next t ∧ t.fld rMgtRst 48 8 = 4 ∧
        ResetBegun s t .package false) ∧
      (a = true ∨ b = true → ∃ t, exec (.mgmtPhaseEnd a b) s = .next t ∧
        (s.lifeCycle = 7 → shows t 1 6) ∧ (s.lifeCycle ≠ 7 → shows t 2 0) ∧ t.activeB = !a ∧
        t.mgmtSt false = (if a then 1 else 4) ∧ t.mgmtSt true = (if b then 1 else 4) ∧ t.rbit rMgtBoot 49 = !(a && b))) ∧
    (at' 1 → s.sys.boot.verified = false → exec (.mgmtPhaseEnd a b) s = .next s) ∧
    (at' 2 → (∃ t, exec (.clocksPhaseEnd links false) s = .next t ∧ shows t 8 8 ∧ ∀ m, m < 12 → (t.lsm m).lit = false) ∧
      (s.sys.boot.wait ≠ 0 → s.sys.boot.wait < 16 → ∃ t, exec (.clocksPhaseEnd links true) s = .next t ∧ shows t 7 s.sys.boot.wait ∧
        (∀ m, m < 12 → (t.lsm m).lit = false) ∧ t.attached = false) ∧
      (s.sys.boot.wait = 0 → ∃ t, exec (.clocksPhaseEnd links true) s = .next t ∧ shows t 3 0 ∧
        ∀ p, p ∈ t.sys.boot.bad ↔ p ∉ links)) ∧
    (s.goesOn 2 = false → exec (.clocksPhaseEnd links a) s = .next s) ∧
    (at' 3 → let bad := fun p => p ∈ s.sys.boot.bad ∨ p ∈ sram
      ∃ t, exec (.memoryPhaseEnd hbm sram) s = .next t ∧
        (∀ p : Fin 4, (t.rbit rMgtBoot (52 + p.val) = true ↔ ¬ bad p) ∧ ((t.part p).fenced = true ↔ bad p)) ∧
        ((∀ p, bad p) → shows t 8 7) ∧ ((∃ p, ¬ bad p) → shows t 4 0) ∧
        (s.sys.boot.inited = false → t.mem.pkg = [] ∧ t.mem.tcr = [] ∧ t.mem.loc = [] ∧
          ∀ (p : Fin 4) (n : Fin 6), ¬ bad p → t.fld (rHbmStat p n.val) 0 4 = if (p, n) ∈ hbm then 4 else 2) ∧
        (s.sys.boot.inited = true → t.mem.pkg = s.mem.pkg ∧ t.mem.tcr = s.mem.tcr)) ∧
    (at' 4 → (s.rbit rMgtBoot 51 = true ∨ s.extents = ⟨1, 1, 1⟩) → ∃ t, exec .linksPhaseEnd s = .next t ∧ shows t 5 0 ∧
      t.sys.boot.known = [] ∧ ∀ (p : Fin 4) (c : Fin 12), t.reg (rCmap p c.val) = s.sys.nv.mapOf p c) ∧
    (at' 4 → s.rbit rMgtBoot 51 = false → s.extents ≠ ⟨1, 1, 1⟩ → exec .linksPhaseEnd s = .next s) ∧
    (∀ (p : Fin 4) (c : Fin 12), s.runsDue p = true → clusterIdx p c ∉ s.sys.boot.known →
      (∃ t, exec (.knownAnswerRun p c []) s = .next t ∧ clusterIdx p c ∈ t.sys.boot.known ∧ t.reg (rCmap p c.val) = s.reg (rCmap p c.val) ∧
        RegsKept s t [] ∧ t.sys.nv = s.sys.nv) ∧
      (∀ (k : Fin 8) (x : Fin 9), let m := s.reg (rCmap p c.val)
        fieldN m (4 * k.val) 4 = x.val → bit m (32 + k.val) = false → fieldN m 44 4 < 9 → fieldN m 44 4 ≠ x.val →
        (∀ j : Fin 8, j ≠ k → fieldN m (4 * j.val) 4 ≠ x.val) →
        ∃ t, exec (.knownAnswerRun p c [x]) s = .next t ∧ t.fld (rCmap p c.val) (4 * k.val) 4 = fieldN m 44 4 ∧
          t.fld (rCmap p c.val) 44 4 = 15 ∧ t.rbit (rCmap p c.val) (48 + x.val) = true ∧
          t.sys.nv.mapOf p c = t.reg (rCmap p c.val) ∧ LogShows s t 1 ((packCore ⟨p, c, k⟩).toNat + fieldN m 44 4 * 512))) ∧
    (s.mayBeReady = true → ∃ t, exec .ready s = .next t ∧ t.phase = 6 ∧
      t.fld rMgtBoot 0 32 = (s.now - s.sys.boot.porAt) / 1000000 % 2 ^ 32 ∧
      t.sys.gov.h = max (s.fld rPwrStat 32 16) s.sys.gov.env.pfloor * 10000 ∧ t.sys.gov.cap = t.sys.gov.h) ∧
    (s.mayBeReady = false → exec .ready s = .next s) ∧
    (s.sys.pins.reset = false → ∃ t, exec (.pkgResetN true) s = .next t ∧ t.phase = 0 ∧ t.fld rMgtRst 48 8 = 2 ∧ t.resets = [] ∧
      t.sys.pins.isolated = false ∧ t.sys.pins.shut = false ∧ (∀ p : Fin 4, (t.part p).fenced = false) ∧ t.colls = [] ∧ t.launches = [] ∧
      t.host.cmds = [] ∧ t.reg rPwrEnvLim = s.reg rPwrEnvLim ∧ (∀ n, n < 36 → t.portState n = s.portState n) ∧ t.ftc = s.ftc) ∧
    (s.sys.pins.reset = true → ∃ t, exec (.pkgResetN false) s = .next t ∧ t.sys.pins.reset = false ∧ t.sys.boot.since = s.now ∧
      t.phase = s.phase)

/-- STORE_CONFIG keeps a container that passes the checks of R426 in the slot not in use, and INSTALL_TOKEN a token that passes
those of R436 and R438; one that fails leaves everything but RESULT as it was (R429, R440, R443). Choices of the model in it: log
entries 22, 55 and 78. -/
def Obligations.Configuration : Prop :=
  ∀ (s : State) (src : RegSource) (v : Word) (i : Instr), i ∈ [Instr.storeConfig src v, .installToken src v] →
    s.accepts src rMgtStageCtl = true → s.phase ≠ 7 →
    let n := fieldN v 16 16
    let d := s.stageBytes n
    let op := fieldN v 0 2
    let says' := fun (st : BitVec 8) => ∃ t, exec i s = .next t ∧ OnlyRegs s t [rMgtStageCtl] ∧ t.fld rMgtStageCtl 48 8 = st.toNat ∧
      t.fld rMgtStageCtl 16 16 = n
    let sized := 1 ≤ n ∧ n ≤ 16384
    let why := s.checkConfig d
    let newer := slotSeq s.slotUsed < leAt d 8 4
    let tok := n = tokenLen ∧ tokenOk d = true ∧ s.fld rMgtLc 0 32 < leAt d 0x18 4
    let lower := leAt d 7 1 < s.fld rMgtLic 62 2 ∧ s.lifeCycle ≠ 3
    (op ≠ 1 → op ≠ 2 → ∃ t, exec i s = .next t ∧ OnlyRegs s t [rMgtStageCtl] ∧ t.fld rMgtStageCtl 16 16 = n) ∧
    (op = 1 ∨ op = 2 → ¬ sized → says' 0x0C) ∧
    (op = 1 → sized → leAt d 0xC 4 ≠ n → says' 0x0C) ∧
    (op = 1 → sized → leAt d 0xC 4 = n → why = caLicence → says' 0x0B) ∧
    (op = 1 → sized → leAt d 0xC 4 = n → why ≠ caLicence → why ≠ 0 ∨ ¬ newer → says' 0x0C) ∧
    (op = 1 → sized → leAt d 0xC 4 = n → why = 0 → newer → ∃ t, exec i s = .next t ∧
      t = { s with regs := t.regs, sys := { s.sys with nv := t.sys.nv } } ∧ RegsKept s t [rMgtStageCtl, rMgtCfgStat] ∧
      t.fld rMgtStageCtl 48 8 = 0 ∧ (s.slotB = true → t.sys.nv.slotA = commitSlot d ∧ t.sys.nv.slotB = s.sys.nv.slotB) ∧
      (s.slotB = false → t.sys.nv.slotB = commitSlot d ∧ t.sys.nv.slotA = s.sys.nv.slotA) ∧
      (s.sys.nv.nextHash = some (keyHash d) → t.sys.nv.opHash = some (keyHash d)) ∧
      (s.sys.nv.nextHash ≠ some (keyHash d) → t.sys.nv.opHash = s.sys.nv.opHash) ∧ t.fld rMgtCfgStat 0 32 = leAt d 8 4 % 2 ^ 32) ∧
    (op = 2 → sized → n ≠ tokenLen → says' 0x0C) ∧
    (op = 2 → n = tokenLen → ¬ tok → says' 0x0B) ∧
    (op = 2 → tok → leAt d 6 1 = 1 → lower → says' 0x0B) ∧
    (op = 2 → tok → leAt d 6 1 = 1 → ¬ lower → s.launches = [] → s.colls = [] → ∃ t, exec i s = .next t ∧
      t.fld rMgtStageCtl 48 8 = 0 ∧ t.sys.nv.licence = d ∧ t.fld rMgtLic 62 2 = leAt d 7 1 ∧ t.fld rMgtLic 32 16 = leAt d 0x1C 2 ∧
      t.fld rMgtLic 0 3 = leAt d 0x1E 2 ∧ t.fld rMgtLc 0 32 = leAt d 0x18 4) ∧
    (op = 2 → tok → leAt d 6 1 = 2 → transitionOk s.lifeCycle (leAt d 7 1) = false → says' 0x0B) ∧
    (op = 2 → tok → leAt d 6 1 = 2 → transitionOk s.lifeCycle (leAt d 7 1) = true → ∃ t, exec i s = .next t ∧
      t = { s with regs := t.regs, sys := { s.sys with nv := t.sys.nv } } ∧ RegsKept s t [rMgtStageCtl, rMgtLc] ∧
      t.rbit rMgtLc 60 = true ∧ t.fld rMgtLc 57 3 = leAt d 7 1 ∧ t.lifeCycle = s.lifeCycle ∧ t.fld rMgtLc 0 32 = leAt d 0x18 4)

/-! ## Reset and recovery -/

/-- The steps of a reset (R446 to R449, Table 13.2): the end of DRAIN cuts and counts the generations up; when every unit has
acknowledged the contents are lost as Table 13.4 says, and what it keeps is kept; RESTORE puts the domain back in service and
reports it; a budget that runs out resets the larger domain. Choices of the model in it: log entries 1, 42, 43 and 64. -/
def Obligations.ResetSteps : Prop :=
  ∀ (s : State) (d : Domain) (j : ResetJob), s.jobOf d = some j →
    let cut := fun (i : Instr) => ∃ t, exec i s = .next t ∧ t.jobOf d = some { j with step := 6 } ∧ GenerationsUp s t (domGens d) ∧
      StatShows t d 6 ∧ t.now = s.now
    let over' := j.start + j.dumpTime + domBudget d
    (j.step = 3 → s.outstanding j = false → cut (.drainEnd d)) ∧
    (j.step ≠ 3 ∨ s.outstanding j = true → exec (.drainEnd d) s = .next s) ∧
    (j.step = 3 → j.start + j.dumpTime + domBudget d / 2 ≤ s.now → cut (.drainTimeout d)) ∧
    (j.step ≠ 3 ∨ s.now < j.start + j.dumpTime + domBudget d / 2 → exec (.drainTimeout d) s = .next s) ∧
    (j.step ≠ 6 ∨ j.held = true → exec (.resetAck d) s = .next s) ∧
    (j.step = 6 → j.held = false → ∃ t, exec (.resetAck d) s = .next t ∧
      (j.hold = false → t.jobOf d = some { j with step := 7 } ∧ StatShows t d 7) ∧
      (j.hold = true → t.jobOf d = some { j with held := true } ∧
        (d ≠ .package → LogShows s t 3 (resetKind d + resetTarget d * 8))) ∧
      (∀ c, d = .core c → j.fail = false → t.core c = (s.core c).cleared ∧ t.stores = s.stores ∧ t.mem = s.mem ∧ CoresKept s t c) ∧
      (∀ p c, d = .cluster p c → t.mem = s.mem ∧ (∀ x ∈ coresIn p c, t.core x = (s.core x).cleared ∧ t.store x = .reset) ∧
        ∀ x, x ∉ coresIn p c → t.core x = s.core x ∧ t.store x = s.store x) ∧
      (∀ p, d = .partition p → t.mem = s.mem ∧ (t.part p).tlb = [] ∧
        (∀ x ∈ coresOf p, t.core x = (s.core x).cleared ∧ t.store x = .reset) ∧
        (∀ x, x ∉ coresOf p → t.core x = s.core x ∧ t.store x = s.store x) ∧
        ∀ n, n < 16 → t.reg (rPtRoot p n) = s.reg (rPtRoot p n)) ∧
      (d = .package → t.mem = s.mem ∧ t.colls = [] ∧ t.launches = [] ∧ t.host.cmds = [] ∧ t.fab.ports = s.fab.ports ∧
        t.fab.ept = s.fab.ept ∧ t.reg rPwrEnvLim = s.reg rPwrEnvLim ∧ (∀ c, (t.core c).s = [] ∧ t.store c = .reset) ∧
        (∀ r, r < 64 → t.ringEn r = false) ∧ ∀ (p : Fin 4) (c : Fin 12), t.reg (rCmap p c.val) = s.reg (rCmap p c.val))) ∧
    (j.step = 7 → s.mayRestore d = true → ∃ t, exec (.restoreEnd d) s = .next t ∧ t.jobOf d = none ∧ t.mem = s.mem ∧
      (d ≠ .package → LogShows s t 3 (resetKind d + resetTarget d * 8 + 4096)) ∧
      (∀ p, d = .partition p → t.rbit rMgtBoot (52 + p.val) = true ∧ ∀ x ∈ coresOf p, (s.core x).st = .fenced → (t.core x).st = .stopped) ∧
      (∀ p c, d = .cluster p c → ∀ x ∈ coresIn p c, (s.core x).st = .fenced → (t.core x).st = .stopped) ∧
      (∀ c, d = .core c → j.fail = false → (s.core c).st = .fenced → (t.core c).st = .stopped) ∧
      (∀ n, d = .context n → t.fld (rCtxStat n.val) 60 3 = if s.rbit (rCtxStat n.val) 63 then 1 else 0) ∧
      (d = .package → t.phase = (if s.sys.boot.lost = [] then 1 else 0))) ∧
    (j.step ≠ 7 ∨ s.mayRestore d = false → exec (.restoreEnd d) s = .next s) ∧
    (j.held = true ∨ j.step = 2 ∨ s.now < over' → exec (.resetBudgetExpiry d) s = .next s) ∧
    (j.held = false → j.step ≠ 2 → over' ≤ s.now → s.resets = [j] → ∃ t, exec (.resetBudgetExpiry d) s = .next t ∧
      (∀ p, (∃ c, d = .core c ∧ c.p = p) ∨ (∃ c, d = .cluster p c) ∨ (∃ u, d = .partEngine p u) →
        (∃ k, t.resets = [k] ∧ k.dom = .partition p ∧ k.start = s.now) ∧ LogShows s t 4 (resetKind d + resetTarget d * 8)) ∧
      ((∃ p, d = .partition p) ∨ (∃ x u, d = .dieEngine x u) → (∃ k, t.resets = [k] ∧ k.dom = .package ∧ k.start = s.now) ∧
        t.fld rMgtRst 48 8 = 3) ∧
      (d = .package → t.rbit rMgtRst 62 = true ∧ (s.sys.boot.lost.contains 11 = false → t.pwrAlert = true) ∧ t.jobOf d = some { j with held := true }))

/-- Requests for resets (R445, R449, R477): a write of GO with the KIND and TARGET of a domain of the partition starts its reset and
nothing starts while one runs there; HOLD is released by the one write that clears it; an engine that stops answering and a package
reset; a die-to-die link that goes down, the last of which holds the partition. Choices of the model in it: log entries 1, 54 and
70. -/
def Obligations.ResetRequests : Prop :=
  ∀ (s : State) (p : Fin 4) (src : RegSource) (v : Word) (i : Instr),
    i ∈ [Instr.rstCore p src v, .rstCluster p src v, .rstPartition p src v, .holdRelease p src v] →
    let a := rRstCtl p
    let go := bit v 63 = true ∧ bit v 57 = false
    let kind := fieldN v 60 3
    let only := fun (t : State) => t.rbit a 58 = bit v 58 ∧ t.fld a 60 3 = kind ∧ t.fld a 0 9 = fieldN v 0 9
    (s.accepts src a = false → exec i s = .next s) ∧
    (s.accepts src a = true → s.rbit (rRstStat p) 63 = false →
      (bit v 63 = false → ∃ t, exec i s = .next t ∧ OnlyRegs s t [a] ∧ only t) ∧
      (∀ c, bit v 63 = true → unpackCore (field v 0 9) = some c → c.p ≠ p → kind = 1 ∨ kind = 2 → exec i s = .next s) ∧
      (∀ c, go → s.resets = [] → kind = 1 → bit v 59 = false → unpackCore (field v 0 9) = some c → c.p = p →
        ∃ t, exec i s = .next t ∧ ResetBegun s t (.core c) false ∧ ((t.core c).st = .fenced ∨ (t.core c).st = .fault) ∧ t.mem = s.mem) ∧
      (∀ c, go → s.resets = [] → kind = 2 → unpackCore (field v 0 9) = some c → c.p = p →
        ∃ t, exec i s = .next t ∧ ResetBegun s t (.cluster p c.c) false ∧
          ∀ x ∈ coresIn p c.c, (t.core x).st = .fenced ∨ (t.core x).st = .fault) ∧
      (go → s.resets = [] → kind = 3 → ∃ t, exec i s = .next t ∧ ResetBegun s t (.partition p) (bit v 58) ∧
        t.rbit rMgtBoot (52 + p.val) = false ∧ ∀ x ∈ coresOf p, (t.core x).st = .fenced ∨ (t.core x).st = .fault)) ∧
    (s.accepts src a = true → s.rbit (rRstStat p) 63 = true →
      let frees := bit v 63 = false ∧ bit v 58 = false ∧ s.rbit a 58 = true ∧ kind = s.fld a 60 3 ∧ fieldN v 0 9 = s.fld a 0 9 ∧
        bit v 59 = s.rbit a 59 ∧ bit v 57 = s.rbit a 57 ∧ (s.part p).fenced = false ∧ (s.part p).railLost = false
      (¬ frees ∨ s.heldPart p = false → exec i s = .next s) ∧
      (∀ j, frees → s.heldPart p = true → s.jobOf (.partition p) = some j → ∃ t, exec i s = .next t ∧ t.rbit a 58 = false ∧
        t.jobOf (.partition p) = some { j with hold := false, held := false, step := 7, start := s.now, dumpTime := 0 } ∧
        StatShows t (.partition p) 7)) ∧
    (∀ d, s.resets = [] → (∃ q u, d = .partEngine q u) ∨ (∃ x u, d = .dieEngine x u) →
      ∃ t, exec (.engineStopsAnswering d) s = .next t ∧ ResetBegun s t d false) ∧
    (∀ d, (∀ q u, d ≠ .partEngine q u) → (∀ x u, d ≠ .dieEngine x u) → exec (.engineStopsAnswering d) s = .next s) ∧
    (s.accepts src rMgtRst = true → bit v 63 = true → s.resets = [] → ∃ t, exec (.pkgReset src v) s = .next t ∧
      ResetBegun s t .package false ∧ t.fld rMgtRst 48 8 = 1 ∧ t.fld rMgtRst 32 16 = min (s.fld rMgtRst 32 16 + 1) 0xFFFF ∧
      ∀ x, (t.core x).st = .fenced ∨ (t.core x).st = .fault) ∧
    (s.accepts src rMgtRst = true → bit v 63 = false → exec (.pkgReset src v) s = .next s) ∧
    (∀ south, (s.part p).linkDown = [] → ∃ t, exec (.dieToDieLinkDown p south none) s = .next t ∧ (t.part p).linkDown = [south] ∧
      t.resets = s.resets ∧ t.cores = s.cores) ∧
    (∀ south, (s.part p).linkDown = [!south] → ∃ t, exec (.dieToDieLinkDown p south none) s = .next t ∧ (t.part p).fenced = true ∧
      t.rbit (rRstCtl p) 58 = true ∧ ∃ j ∈ t.resets, domWithin (.partition p) j.dom = true)

/-- A reset leaves the sticky bits of every register as they are (R12): no unit that acknowledges a reset, of a core or of the whole
package, changes one. Choices of the model in it: log entry 42. -/
def Obligations.StickyFields : Prop :=
  ∀ (s t : State) (d : Domain), exec (.resetAck d) s = .next t →
    ∀ a r, regRow a = some r → t.reg a &&& r.sticky = s.reg a &&& r.sticky

/-- The comparators act on a message once (R468 to R473): on equal intact copies, or on the intact one with the other core fenced;
copies that differ withhold it and send the standby to RELOAD, and a second divergence within 600 s fences it; a missing copy fences
its core. READMIT and SWAP change the roles as R472 and R473 say, and a self-test that fails fences the standby. Choices of the
model in it: log entries 1 and 45. -/
def Obligations.ManagementPair : Prop :=
  ∀ (s : State) (x y : PairCopy) (src : RegSource) (v : Word) (cov tcov : BitVec 8), x.seq = y.seq →
    let both := s.mgmtSt false = 1 ∧ s.mgmtSt true = 1
    let act := if s.activeB then y else x
    let sb := !s.activeB
    let same := x.body = y.body ∧ x.digest = y.digest
    let msg := fun (f : State → Prop) => ∃ t, exec (.pairMessage x y) s = .next t ∧ f t
    let recent := s.fld rMgtPairCnt 48 16 ≠ 0 ∧ s.fld rObsPtc 0 32 ≤ s.fld rMgtPair 12 32 + 600
    let still := fun (t : State) => t.mgmtSt false = s.mgmtSt false ∧ t.mgmtSt true = s.mgmtSt true ∧ t.activeB = s.activeB
    (both → x.intact = true → y.intact = true → same → msg fun t => ActedOn s t x ∧ still t ∧ t.regs = s.regs) ∧
    (both → x.intact = true → y.intact = false → msg fun t => ActedOn s t x ∧ PairFenced s t true 1) ∧
    (both → x.intact = false → y.intact = true → msg fun t => ActedOn s t y ∧ PairFenced s t false 1) ∧
    (both → (x.intact = y.intact ∧ ¬ (x.intact = true ∧ same)) →
      (¬ recent → msg fun t => t.out = s.out ∧ t.mgmtSt sb = 3 ∧ t.mgmtSt s.activeB = 1 ∧ t.sys.pair.held = some act ∧
        LogShows s t 7 x.seq.toNat ∧ t.fld rMgtPairCnt 48 16 = min (s.fld rMgtPairCnt 48 16 + 1) 0xFFFF) ∧
      (recent → msg fun t => ActedOn s t act ∧ PairFenced s t sb 3)) ∧
    (s.mgmtSt s.activeB = 1 → s.mgmtSt sb = 4 ∨ s.mgmtSt sb = 0 → msg fun t => ActedOn s t act ∧ still t) ∧
    (s.mgmtSt s.activeB ≠ 1 ∨ s.mgmtSt sb = 3 → exec (.pairMessage x y) s = .next s) ∧
    (both → ∀ fromB, ∃ t, exec (.pairCopyTimeout fromB x) s = .next t ∧ ActedOn s t x ∧ PairFenced s t (!fromB) 2) ∧
    (∀ m, s.mgmtSt s.activeB = 1 → s.mgmtSt sb = 3 → s.sys.pair.held = some m →
      (m.seq = x.seq → s.now ≤ s.sys.pair.reloadAt + 2000000 → x.intact = true → y.intact = true → same → ∃ t, exec (.reloadDone x y) s = .next t ∧
        ActedOn s t x ∧ t.mgmtSt sb = 1 ∧ t.sys.pair.held = none) ∧
      (s.sys.pair.reloadAt + 2000000 < s.now → exec (.reloadDone x y) s = .next s ∧
        ∃ t, exec .reloadTimeout s = .next t ∧ ActedOn s t m ∧ PairFenced s t sb 5) ∧
      (s.now ≤ s.sys.pair.reloadAt + 2000000 → exec .reloadTimeout s = .next s)) ∧
    (s.accepts src rMgtPair = true →
      (bit v 0 = true → bit v 1 = false → s.mgmtSt sb = 4 → s.mgmtSt s.activeB = 1 → ∃ t, exec (.readmit src v) s = .next t ∧
        t.mgmtSt sb = 2 ∧ t.mgmtSt s.activeB = 1 ∧ t.activeB = s.activeB ∧ t.rbit rMgtBoot 49 = false ∧ t.sys.pair.same = 0) ∧
      (bit v 0 = false → bit v 1 = true → s.mgmtSt sb = 1 → ∃ t, exec (.pairSwap src v) s = .next t ∧ OnlyRegs s t [rMgtPair] ∧
        t.activeB = sb ∧ t.mgmtSt sb = 1 ∧ t.mgmtSt s.activeB = s.mgmtSt s.activeB) ∧
      (bit v 0 = false → bit v 1 = true → s.mgmtSt sb = 2 → s.rbit rMgtPair 56 = true → ∃ t, exec (.pairSwap src v) s = .next t ∧
        t.activeB = sb ∧ t.mgmtSt sb = 1 ∧ t.mgmtSt s.activeB = 2) ∧
      (bit v 0 = false → bit v 1 = true → s.mgmtSt sb ≠ 1 → ¬ (s.mgmtSt sb = 2 ∧ s.rbit rMgtPair 56 = true) →
        exec (.pairSwap src v) s = .next s)) ∧
    (s.mgmtSt sb = 1 ∨ s.mgmtSt sb = 2 →
      (∃ t, exec (.standbySelftest true cov tcov) s = .next t ∧ OnlyRegs s t [rMgtPairCnt] ∧ t.fld rMgtPairCnt 8 8 = cov.toNat ∧
        t.fld rMgtPairCnt 0 8 = tcov.toNat ∧ t.fld rMgtPairCnt 16 16 = min (s.fld rMgtPairCnt 16 16 + 1) 0xFFFF) ∧
      (∃ t, exec (.standbySelftest false cov tcov) s = .next t ∧ PairFenced s t sb 4 ∧ t.out = s.out))

/-- A dump reads unit after unit into its region and ends with its header, HELD and the event; a unit that is silent for 1 ms is
recorded as UNREADABLE (R464 to R467). The detector reports a cycle, and resets the partition if RESET is set (R457, R459). A notice
goes again every 1 ms, up to 100 times (R461). Peers end what a failed slice had started (R462). Choices of the model in it: log
entries 1 and 39. -/
def Obligations.DumpsAndNotices : Prop :=
  ∀ (s : State) (p : Fin 4) (src : RegSource) (v : Word) (pay : List TileData),
    (s.sys.dump = none → exec (.dumpUnitRead pay) s = .next s ∧ exec .dumpUnitTimeout s = .next s) ∧
    (∀ d, s.sys.dump = some d → d.unit + 1 < dumpUnits d.part →
      (∃ t e, exec (.dumpUnitRead pay) s = .next t ∧ t.sys.dump = some e ∧ e.unit = d.unit + 1 ∧ e.recs = d.recs + 1 ∧
        e.unitAt = s.now ∧ (∃ l, e.tiles = d.tiles ++ l) ∧ t = { s with mem := t.mem, cnt := t.cnt, sys := { s.sys with dump := some e } }) ∧
      (d.unitAt + 1000000 ≤ s.now → ∃ t e h, exec .dumpUnitTimeout s = .next t ∧ t.sys.dump = some e ∧ e.unit = d.unit + 1 ∧
        (d.tiles.length + (dumpUnits d.part - d.unit) < dumpTiles → e.tiles = d.tiles ++ [h] ∧ bitsAt h 16 8 = 0x0E ∧
          bitsAt h 0 16 = (dumpUnit d.part d.unit).1 ∧ bitsAt h 32 32 = 0)) ∧
      (s.now < d.unitAt + 1000000 → exec .dumpUnitTimeout s = .next s)) ∧
    (∀ d, s.sys.dump = some d → d.unit + 1 = dumpUnits d.part → ∃ t, exec (.dumpUnitRead pay) s = .next t ∧ t.sys.dump = none ∧
      t.rbit rMgtDumpStat 63 = true ∧ t.rbit rMgtDumpStat 62 = d.alt ∧
      t.fld rMgtDumpStat 0 32 = (s.fld rMgtDumpStat 0 32 + 1) % 2 ^ 32 ∧ LogShows s t 9 (t.fld rMgtDumpStat 0 32) ∧
      ∀ j ∈ t.resets, j.step ≠ 2) ∧
    (∀ qs : List (BitVec 10), let l := ascending (qs.map BitVec.toNat)
      (s.rbit (rRstWfd p) 63 = false ∨ l.length < 2 → exec (.cycleReport p qs) s = .next s) ∧
      (s.rbit (rRstWfd p) 63 = true → 2 ≤ l.length → l.length ≤ 16 → ∃ t, exec (.cycleReport p qs) s = .next t ∧
        t.rbit (rRstWfd p) 61 = true ∧ t.fld (rRstWfd p) 56 5 = l.length ∧
        t.fld (rRstWfd p) 32 16 = min (s.fld (rRstWfd p) 32 16 + 1) 0xFFFF ∧
        (∀ k, k < 16 → t.rbit (rRstWfdMem p k) 63 = decide (k < l.length) ∧ t.fld (rRstWfdMem p k) 0 10 = l.getD k 0) ∧
        (s.rbit (rRstWfd p) 62 = false → LogShows s t 5 (p.val + l.length * 4 + l.headD 0 * 128) ∧ t.resets = s.resets) ∧
        (s.rbit (rRstWfd p) 62 = true → s.resets = [] → ∃ j, t.resets = [j] ∧ j.dom = .partition p))) ∧
    (∀ (q : BitVec 16) (n : Notice), (s.sys.notices.find? fun x => x.seq == q) = some n →
      ((s.sys.notices.map Notice.seq).Nodup → s.now < n.last + 1000000 → exec (.noticeRetry q) s = .next s) ∧
      (n.last + 1000000 ≤ s.now → n.sent ≤ 100 → ∃ t r, exec (.noticeRetry q) s = .next t ∧ t.fab.src = s.fab.src ++ [r] ∧
        r.pkt.typ = 3 ∧ r.pkt.data8 = n.word ∧ r.pkt.offset = BitVec.ofNat 40 (q.toNat % 512 * 8) ∧ r.pkt.dstEp = s.fmEp ∧
        (t.sys.notices.find? fun x => x.seq == q) = some { n with sent := n.sent + 1, last := s.now }) ∧
      (n.last + 1000000 ≤ s.now → 100 < n.sent → ∃ t, exec (.noticeRetry q) s = .next t ∧
        (∀ x ∈ t.sys.notices, x.seq ≠ q) ∧ t.fld rMgtEvtPtr 16 16 = min (s.fld rMgtEvtPtr 16 16 + 1) 0xFFFF)) ∧
    (s.accepts src rMgtPeerFail = true → (src = .mgmtCore ∨ src = .fabricMgr) ∧
      (bit v 63 = false → ∃ t, exec (.peerFail src v) s = .next t ∧ OnlyRegs s t [rMgtPeerFail] ∧
        t.fld rMgtPeerFail 30 12 = fieldN v 30 12) ∧
      (bit v 63 = true → let mine := fun (n : Fin 16) => s.ctxSlice n.val = some (fieldN v 30 12)
        ∃ t, exec (.peerFail src v) s = .next t ∧ (∀ c ∈ t.colls, ¬ mine c.ctx) ∧
          (∀ l ∈ t.launches, mine l.ctx → l.status.isSome = true) ∧
          t.fld rMgtPeerFail 0 16 = ((s.launches.filter fun l => decide (mine l.ctx)).length +
            (s.colls.filter fun c => decide (mine c.ctx)).length) % 2 ^ 16))

/-! ## Self-test, counters, updates -/

/-- A slice of the queue starts only where R483 lets it, the oldest first; one that ends, is cut off at its duration (R480) or has
waited for WAITLIM (R485) leaves the queue, BST_STAT, BST_LAST and BST_LAST_COV show it, and its target is as R481 says. Choices of
the model in it: log entries 1 and 72. -/
def Obligations.Slices : Prop :=
  ∀ (s : State) (n : Nat) (x : Slice) (r : SliceResult), s.sys.bst.queue[n]? = some x →
    let all := s.sys.bst.queue
    let tg := x.target
    let may := s.maySlice x = true
    let chan := x.code = 1 ∨ x.code = 7
    let cov := (min r.covSa.toNat (sliceCoverage x.code).1, min r.covTr.toNat (sliceCoverage x.code).2)
    (x.start ≠ none → ¬ may) ∧ ((∃ y ∈ all, y.start ≠ none ∧ sliceUnit y.code y.target = sliceUnit x.code tg) → ¬ may) ∧
    (x.force = false → 8 ≤ (all.filter fun y => y.start.isSome).length → ¬ may) ∧
    (x.force = false → x.code ≠ 9 → (∃ c ∈ s.host.cmds, c.type = 2 ∨ c.type = 3) → ¬ may) ∧
    (x.force = false → x.code = 8 → (∃ c, (s.core c).st = .run) → ¬ may) ∧
    (may → (∀ k y, k < n → all[k]? = some y → s.maySlice y = false) → ∃ t f, exec .sliceStart s = .next t ∧
      t.sys.bst.queue[n]? = some { x with start := some (s.ftc, s.now), fenced := f } ∧
      (∀ k, k ≠ n → t.sys.bst.queue[k]? = all[k]?) ∧ (chan → ChannelOut t tg) ∧
      (x.code = 2 → tg < 8 → t.sys.bridgeOut.getLsbD tg = true)) ∧
    ((∀ y ∈ all, s.maySlice y = false) → exec .sliceStart s = .next s) ∧
    (x.start = none → exec (.sliceEnd n r) s = .next s ∧ exec (.sliceCut n r) s = .next s) ∧
    (∀ f t0, x.start = some (f, t0) →
      let us := (s.now - t0) / 1000
      (t0 + sliceDuration x.code ≤ s.now → exec (.sliceEnd n r) s = .next s ∧
        ∃ t, exec (.sliceCut n r) s = .next t ∧ SliceEnded s t n x 0 1 cov us ∧ (chan → (ChannelOut t tg ↔ ChannelOut s tg))) ∧
      (s.now < t0 + sliceDuration x.code → exec (.sliceCut n r) s = .next s ∧
        ∃ t, exec (.sliceEnd n r) s = .next t ∧ SliceEnded s t n x 0 (if r.pass then 0 else 1) cov us ∧
          (r.pass = true → (chan → ¬ ChannelOut t tg) ∧ (x.code = 2 → tg < 8 → t.sys.bridgeOut.getLsbD tg = false) ∧
            (x.code = 8 → tg ∉ t.host.portsHeld)) ∧
          (r.pass = false → (chan → (ChannelOut t tg ↔ ChannelOut s tg)) ∧ (x.code = 8 → t.host.portsHeld = s.host.portsHeld) ∧
            (x.code = 3 → t.rbit (rRstCtl (partNo (tg / 256))) 58 = true) ∧
            (x.code = 4 → beyondSpares r = true → t.fld (rHbmStat (partNo (tg / 256)) (tg / 16 % 8)) 0 4 = 4) ∧
            (x.code = 0x81 → tg < 4 → t.rbit rMgtBoot (52 + tg) = false) ∧
            (x.code = 0x82 → t.phase = 8 ∧ t.fld rMgtBoot 56 4 = 8)))) ∧
    (let due := x.start = none ∧ x.reqAt + s.fld rBstSched 16 16 * 1000000000 ≤ s.now;
      (¬ due → exec (.sliceExpire n) s = .next s) ∧
      (due → x.dsp = false → ∃ t, exec (.sliceExpire n) s = .next t ∧ SliceEnded s t n x 0x0F 2 (0, 0) 0))

/-- LATCH takes all counters at one tick, once (R493); the Powered Time Counter counts seconds while VAUX is present (R499); the
inventory is refreshed every 60 s (R522); a packet of trace goes into its core's share (R501, R502); periodic slices come one pair
at a time, at most 8 of them waiting (R486). Choices of the model in it: log entries 1 and 83. -/
def Obligations.CountersAndTrace : Prop :=
  ∀ (s : State) (src : RegSource) (v : Word) (a : AppCore) (priv : BitVec 2) (bytes : List Byte) (lost : Bool),
    let same := s.fld rObsLatch 0 32 ≠ 0 ∧ s.reg rObsLatchT = s.ftc
    let go := s.accepts src rObsLatch = true ∧ bit v 63 = true
    let sec := s.sys.ptcAt + 1000000000 ≤ s.now ∧ 11 ∉ s.sys.boot.lost
    let n := s.fld rObsPtc 0 32
    let c := a.p.val * 8 + a.a.val
    let row := mget (fun _ => []) s.sys.trace c
    let pkt := BitVec.ofNat 8 bytes.length :: bytes
    let next := s.fld (rTrcPtr c) 0 32
    let packet := fun (f : State → Prop) => ∃ t, exec (.tracePacket a priv bytes lost) s = .next t ∧ f t
    let held := fun (t : State) c => mget (fun _ => []) t.sys.trace c
    let bst := s.sys.bst
    let updating := s.fld rMgtUpdStat 60 4 = 4 ∨ s.fld rMgtUpdStat 60 4 = 5
    let period := s.now / (s.fld rBstSched 32 16 * 3600000000000)
    let at' := if period = bst.period then bst.next else 0
    (¬ go ∨ same → exec (.latch src v) s = .next s) ∧
    (go → ¬ same → ∃ t, exec (.latch src v) s = .next t ∧ t = { s with regs := t.regs } ∧
      (∀ i, i < 152 → t.reg (rObsCnt i) = mget (fun _ => 0) s.cnt i) ∧ t.reg rObsLatchT = s.ftc ∧
      t.fld rObsLatch 0 32 = (s.fld rObsLatch 0 32 + 1) % 2 ^ 32) ∧
    (¬ sec → exec .ptcTick s = .next s) ∧
    (sec → ∃ t, exec .ptcTick s = .next t ∧ t = { s with regs := t.regs, sys := t.sys } ∧ RegsKept s t [rObsPtc] ∧
      t.fld rObsPtc 0 32 = (n + 1) % 2 ^ 32 ∧
      t.sys = { s.sys with ptcAt := s.sys.ptcAt + 1000000000, ptcStored := t.sys.ptcStored } ∧
      t.sys.ptcStored = if (n + 1) % 2 ^ 32 % 60 = 0 then BitVec.ofNat 32 (n + 1) else s.sys.ptcStored) ∧
    (n < s.sys.invPtc.toNat + 60 → exec .inventoryUpdate s = .next s) ∧
    (s.sys.invPtc.toNat + 60 ≤ n → ∃ t, exec .inventoryUpdate s = .next t ∧ t.sys.invPtc.toNat = n ∧
      t = { s with sys := { s.sys with invPtc := t.sys.invPtc } } ∧ t.inventory / 2 ^ 128 % 2 ^ 32 = n) ∧
    (s.rbit rTrcCtl c = false ∨ s.rbit rTrcCtl (58 + priv.toNat) = false ∨ 63 < bytes.length ∨
      (s.rbit rTrcCtl 63 = true ∧ s.traceShare a.p ≤ next) → exec (.tracePacket a priv bytes lost) s = .next s) ∧
    (s.traces a priv = true → bytes.length ≤ 63 →
      (lost = true → packet fun t => OnlyRegs s t [rTrcPtr c] ∧ t.fld (rTrcPtr c) 0 32 = next ∧
        t.fld (rTrcPtr c) 32 16 = min (s.fld (rTrcPtr c) 32 16 + 1) 0xFFFF) ∧
      (lost = false → (∀ d, d ≠ c → packet fun t => held t d = held s d) ∧
        (row.length + pkt.length < 64 → packet fun t =>
          t = { s with sys := { s.sys with trace := t.sys.trace } } ∧ held t c = row ++ pkt) ∧
        (64 ≤ row.length + pkt.length → packet fun t => held t c = (if row.length + pkt.length = 64 then [] else pkt) ∧
          (next + 64 < s.traceShare a.p → t.fld (rTrcPtr c) 0 32 = (next + 64) % 2 ^ 32) ∧
          (s.traceShare a.p ≤ next + 64 → s.rbit rTrcCtl 63 = false →
            t.fld (rTrcPtr c) 0 32 = 0 ∧ t.rbit (rTrcPtr c) 63 = true)))) ∧
    (¬ updating → s.rbit rBstSched 63 = false ∨ s.phase ≠ 6 → exec .periodicSliceQueue s = .next s) ∧
    (∀ code tg, ¬ updating → s.rbit rBstSched 63 = true → s.phase = 6 → periodicPair at' = some (code, tg) →
      (8 ≤ s.queued Slice.own ∨ 64 ≤ s.queued (fun _ => true) → ∃ t, exec .periodicSliceQueue s = .next t ∧
        t = { s with sys := { s.sys with bst := t.sys.bst } } ∧ t.sys.bst = { bst with period := period, next := at' }) ∧
      (s.queued Slice.own < 8 → s.queued (fun _ => true) < 64 → s.sliceAbsent code tg = false → code ≠ 9 →
        ∃ t y, exec .periodicSliceQueue s = .next t ∧ t.sys.bst = { queue := bst.queue ++ [y], period := period, next := at' + 1 } ∧
          y.code = code ∧ y.target = tg ∧ y.force = false ∧ y.cmd = none ∧ y.start = none ∧ y.reqAt = s.now ∧
          RegsKept s t [rBstStat]))

/-- A write of MGT_UPD_CTL (R506, R510, R513, R514): GO reads and checks the header, with the first failing check of Table 15.4 as
CAUSE and nothing stored; ABORT discards what is staged; ROLLBACK names the old banks again; APPLY counts the held partitions of
PMASK. Staging ends STAGED only with every part's digest matched, else the staged banks are emptied (R507, R508); at ACT_AT the
activation record names the other bank of every part; the last passing check commits, a failing one rolls back (R512, R513); and a
rollback ends when every unit runs the old parts. Choices of the model in it: log entries 1, 23, 78, 79 and 80. -/
def Obligations.Updates : Prop :=
  (∀ (s : State) (src : RegSource) (v : Word) (i : Instr),
     i ∈ [Instr.updateStart src v, .apply src v, .abort src v, .rollback src v] → s.accepts src rMgtUpdCtl = true →
     let st := s.updState
     let src0 := (s.reg rMgtUpdSrc).toNat
     let go := bit v 63 = true
     let runs := fun (f : State → Prop) => ∃ t, exec i s = .next t ∧ t.fld rMgtUpdCtl 56 4 = fieldN v 56 4 ∧ f t
     let kept := runs fun t => OnlyRegs s t [rMgtUpdCtl]
     let fails := fun cause (result : BitVec 8) => runs fun t => UpdateEnded t cause result ∧ t.sys.fw = s.sys.fw
     (go → st ≠ 0 → kept) ∧ (go → st = 0 → s.inWindow0 src0 0x2000 = false → fails 9 0x0C) ∧
     (∀ u, go → st = 0 → s.inWindow0 src0 0x2000 = true → (s.loading v).goodTiles src0 2 = (u, none) → fails 9 0x0C) ∧
     (∀ u b, go → st = 0 → s.inWindow0 src0 0x2000 = true → (s.loading v).goodTiles src0 2 = (u, some b) →
       let whole := headerFormOk b = false ∨ s.inWindow0 src0 (leAt b 0x20 8) = true
       (¬ whole → fails 9 0x0C) ∧
       (whole → s.headerFails b ≠ 0 → fails (s.headerFails b) (if s.headerFails b = 4 then 0x0B else 0x0C)) ∧
       (whole → s.headerFails b = 0 → runs fun t => t.updState = 2 ∧ t.sys.fw = s.sys.fw ∧ t.sys.upd.parts = manifest b ∧
         t.sys.upd.release.toNat = leAt b 0x14 4)) ∧
     (¬ go → bit v 62 = true →
       (st = 2 ∨ st = 3 → s.ftc.toNat < (s.reg rMgtUpdAt).toNat → runs fun t => t.updState = 0 ∧ t.fld rMgtUpdStat 52 8 = 11 ∧
         BanksEmpty t ∧ t.sys.fw = { s.sys.fw with banks := t.sys.fw.banks }) ∧
       ((st ≠ 2 ∧ st ≠ 3) ∨ (s.reg rMgtUpdAt).toNat ≤ s.ftc.toNat → kept)) ∧
     (¬ go → bit v 62 = false → bit v 61 = true →
       (st = 4 → runs fun t => t.updState = 5 ∧ t.sys.fw = { s.sys.fw with active := s.sys.fw.old, release := s.sys.upd.oldRel } ∧
         t.sys.upd.cause = 14) ∧ (st ≠ 4 → kept)) ∧
     (¬ go → bit v 62 = false → bit v 61 = false →
       (bit v 60 = false ∨ (st ≠ 4 ∧ st ≠ 5) → kept) ∧
       (bit v 60 = true → st = 4 ∨ st = 5 → runs fun t => RegsKept s t [rMgtUpdCtl] ∧
         t = { s with regs := t.regs, sys := { s.sys with upd := { s.sys.upd with onPart := t.sys.upd.onPart } } } ∧
         ∀ p : Fin 4, t.sys.upd.onPart.getLsbD p.val =
           (s.sys.upd.onPart.getLsbD p.val || (bit v (56 + p.val) && s.heldPart p))))) ∧
  (∀ (s : State) (part : Fin 7) (p : Fin 4) (pass : Bool),
     let st := s.updState
     let at' := (s.reg rMgtUpdAt).toNat
     let fw := s.sys.fw
     let due := s.checkDue part.val p pass = true
     let other := fun i => 2 * i + if fw.active.getLsbD i then 0 else 1
     (st ≠ 2 → exec .stagingDone s = .next s) ∧
     (∀ r, st = 2 → s.stageParts [1, 2, 3, 4, 5, 6, 7] = r → ∃ t, exec .stagingDone s = .next t ∧
       (r.2 ≠ 0 → UpdateEnded t r.2 0x0C ∧ BanksEmpty t ∧ (r.2 = 8 ∨ r.2 = 9)) ∧
       (r.2 = 0 → at' ≤ s.ftc.toNat → t.updState = 0 ∧ t.fld rMgtUpdStat 52 8 = 10 ∧ BanksEmpty t) ∧
       (r.2 = 0 → s.ftc.toNat < at' → t.updState = 3 ∧ t.sys.fw = { fw with banks := t.sys.fw.banks } ∧
         ∀ i e, i < 7 → (s.sys.upd.parts.find? fun e => e.part == i + 1) = some e →
           sha384 (mget (fun _ => []) t.sys.fw.banks (other i)) = e.digest)) ∧
     (st ≠ 3 ∨ s.ftc.toNat < at' → exec .actAt s = .next s) ∧
     (st = 3 → at' ≤ s.ftc.toNat → ∃ t, exec .actAt s = .next t ∧
       (s.tier < s.sys.upd.minTier → UpdateEnded t 4 0x0B ∧ BanksEmpty t ∧ t.sys.fw.active = fw.active) ∧
       (s.sys.upd.minTier ≤ s.tier → t.updState = 4 ∧ t.sys.fw = { fw with active := ~~~fw.active, old := fw.active, release := s.sys.upd.release } ∧
         t.sys.upd.checked = 0 ∧ t.fld rMgtUpdRel 32 32 = s.sys.upd.release.toNat ∧ t.fld rMgtUpdRel 0 32 = fw.floor.toNat)) ∧
     (st ≠ 4 ∨ ¬ due → exec (.partCheck part p pass) s = .next s) ∧
     (st = 4 → due → pass = false → ∃ t, exec (.partCheck part p pass) s = .next t ∧ t.updState = 5 ∧ t.sys.upd.cause = 13 ∧
       t.sys.fw = { fw with active := fw.old, release := s.sys.upd.oldRel }) ∧
     (st = 4 → due → pass = true → let u := s.sys.upd.check part.val p
       (u.passed = false → ∃ t, exec (.partCheck part p pass) s = .next t ∧ t = { s with sys := { s.sys with upd := u } }) ∧
       (u.passed = true → ∃ t, exec (.partCheck part p pass) s = .next t ∧ UpdateEnded t 0 0 ∧ BanksEmpty t ∧
         t.sys.fw.floor = s.sys.upd.rollback ∧ t.sys.fw.active = fw.active ∧ t.fld rMgtUpdRel 0 32 = s.sys.upd.rollback.toNat)) ∧
     (let late := st = 4 ∧ s.pairOn = false ∧ s.sys.upd.actAt + s.fld rMgtUpdCfg 0 16 * 1000000000 ≤ s.now;
       (¬ late → exec .checkSExpiry s = .next s) ∧
       (late → ∃ t, exec .checkSExpiry s = .next t ∧ t.updState = 5 ∧ t.sys.upd.cause = 13 ∧ t.sys.fw.active = fw.old)) ∧
     (let back := st = 5 ∧ s.pairOn = true ∧ s.sys.upd.onPart = 15 ∧ s.halvesOn = true;
       (¬ back → exec .rollbackDone s = .next s) ∧
       (back → s.sys.upd.cause < 256 → ∃ t, exec .rollbackDone s = .next t ∧ t.updState = 0 ∧ t.fld rMgtUpdStat 52 8 = s.sys.upd.cause ∧
         BanksEmpty t ∧ t.sys.fw.active = fw.active ∧ t.sys.fw.floor = fw.floor)))

/-! ## Control space, reset, invariants -/

/-- Accesses that are not 64-bit accesses to an aligned address do nothing but count (R5); where no register is defined a read gives
zero and a write has no effect (R6); a write reaches the fields by their access codes (R8), if the register takes it from its
source; a bounded field keeps its value when the value written is outside its range. A register with a rule of its own does the same
whichever way a write reaches it: as REG_WRITE or as the row of its rule (R6, R8). A MGMT request is performed only if it comes from
FM_EP to local endpoint 0; every other is dropped, counted in ISO_ING and refused with ROUTE_ISOLATION (R281). Choices of the model
in it: log entries 26, 56, 86 and 87. -/
def Obligations.ControlSpace : Prop :=
  (∀ (s : State) (src : RegSource) (addr : BitVec 28) (size : Nat) (v : Word),
     let a := addr.toNat
     let err := rHstHerr (herrDie src)
     let whole := size = 8 ∧ a % 8 = 0
     let wr := exec (.regWrite src addr size v) s
     let takes := s.accepts src a = true ∧ size = 8
     (¬ whole → (∃ t, wr = .next t ∧ OnlyRegs s t [err] ∧ t.fld err 48 16 = min (s.fld err 48 16 + 1) 0xFFFF ∧
       s.readReg src a size = (t, 0))) ∧
     (regRow (canonAddr a) = none → canonAddr a ≠ rObsFtc → a < 0xF000000 → whole → wr = .next s ∧ s.readReg src a size = (s, 0)) ∧
     (whole → s.accepts src (canonAddr a) = false → wr = .next s) ∧
     (a ∈ plainRegs → takes → ∃ r, regRow a = some r ∧ ∃ t, wr = .next t ∧ OnlyRegs s t [a] ∧ ∀ i, i < 64 →
       t.rbit a i = if bit r.rw i then bit v i else if bit r.w1c i && bit v i then false else s.rbit a i) ∧
     (∀ at' w lo hi, (a, at', w, lo, hi) ∈ boundedFields → takes → ∃ t, wr = .next t ∧ OnlyRegs s t [a] ∧
       t.fld a at' w = if lo ≤ fieldN v at' w ∧ fieldN v at' w ≤ hi then fieldN v at' w else s.fld a at' w) ∧
     (a = rMgtUpdAt → takes → (s.updState ≠ 0 → wr = .next s) ∧
       (s.updState = 0 → ∃ t, wr = .next t ∧ OnlyRegs s t [a] ∧ t.reg a = v)) ∧
     (∀ p : Fin 4, a = rTrcBuf p.val → takes → (s.fld rTrcCtl (8 * p.val) 8 ≠ 0 → wr = .next s) ∧
       (s.fld rTrcCtl (8 * p.val) 8 = 0 → ∃ t, wr = .next t ∧ OnlyRegs s t [a] ∧ t.fld a 48 16 = fieldN v 48 16 ∧
         t.fld a 21 27 = fieldN v 21 27)) ∧
     (∀ c : CoreAddr, a = 0xF011800 + c.p.val * 0x400000 + (c.c.val * 8 + c.k.val) * 8 → takes → ∃ t, wr = .next t ∧ OnlyCore s t c ∧
       ((s.core c).st = .stopped → fieldN v 0 5 + fieldN v 8 8 ≤ 32 →
         t.core c = { s.core c with code := (t.core c).code } ∧ fieldN (t.core c).code 0 5 = fieldN v 0 5 ∧
           fieldN (t.core c).code 8 8 = fieldN v 8 8) ∧
       ((s.core c).st ≠ .stopped ∨ 32 < fieldN v 0 5 + fieldN v 8 8 → t.core c = s.core c)) ∧
     (s.phase = 6 → (mayWrite src a = true ↔ s.accepts src a = true)) ∧ (s.phase = 0 → s.accepts src a = false)) ∧
  (∀ (s : State) (src : RegSource) (v : Word) (p : Fin 4) (d : Fin 2) (c : Fin 16) (n : Fin 64) (port : Fin 36) (a : Nat) (i : Instr),
     OwnRule src v p d c n port a i →
     exec (.regWrite src (BitVec.ofNat 28 a) 8 v) s = exec i s ∧ (s.accepts src a = false → exec i s = .next s)) ∧
  (∀ (s : State) (port : Fin 36) (p : Packet),
     let die := port.val / 18
     let a := p.offset.toNat
     let err := rFabErr (dieOf die)
     let run := exec (.mgmt port p) s
     let fromFm := p.srcEp = s.fmEp ∧ s.lepOf die p = 0
     let shown := if s.serves .fabricMgr (canonAddr a) = true then s.regValue (canonAddr a) else 0
     (p.typ ≠ 8 → run = .next s) ∧
     (p.typ = 8 → headerOk p = false → ∃ t, run = .next t ∧ OnlyRegs s t [err] ∧ t.fld err 48 16 = min (s.fld err 48 16 + 1) 0xFFFF) ∧
     (p.typ = 8 → headerOk p = true → s.ingressStatus die p = some 8 ∨ (s.ingressStatus die p = none ∧ ¬ fromFm) → ∃ t, run = .next t ∧
       AnswerOnly s t [err] ∧ t.fld err 16 16 = min (s.fld err 16 16 + 1) 0xFFFF ∧ Answered s t die p 13 8 0 .none) ∧
     (p.typ = 8 → headerOk p = true → s.ingressStatus die p = none → fromFm →
       (p.coll.getLsbD 0 = false → a % 8 = 0 → a < 2 ^ 28 → ∃ t, run = .next t ∧ AnswerOnly s t [] ∧ Answered s t die p 12 0 shown .none) ∧
       (p.coll.getLsbD 0 = false → a % 8 ≠ 0 ∨ 2 ^ 28 ≤ a → ∃ t, run = .next t ∧ AnswerOnly s t [rHstHerr 0] ∧
         ∃ u, AnswerOnly s u [rHstHerr 0] ∧ Answered u t die p 12 0 0 .none) ∧
       (p.coll.getLsbD 0 = true → a < 2 ^ 28 → ∃ u t, exec (.regWrite .fabricMgr (BitVec.ofNat 28 a) 8 p.data8) s = .next u ∧
         run = .next t ∧ AnswerOnly u t [] ∧ Answered u t die p 12 0 0 .none)))

/-- Right after reset: the registers have the reset values of their field tables, every core is STOPPED with its registers clear,
memories list nothing, rings, windows, groups and banks are out of use, and no command waits. The values of MGT_LC and MGT_LIC, and
the contents of the register files and of the memories, are the model's choices (log entries 4, 5, 6). The invariants hold right
after reset. -/
def Obligations.ResetValues : Prop :=
  (let s := State.reset
   s.pending = [] ∧ s.out = [] ∧ s.ftc = 0 ∧ s.phase = 0 ∧ s.resets = [] ∧ s.launches = [] ∧ s.colls = [] ∧
     (∀ c, (s.core c).st = .stopped ∧ (s.core c).pc = 0 ∧ (s.core c).span = 0 ∧ (s.core c).exc = 0 ∧ (s.core c).flags = 0 ∧
       (s.core c).code = 0 ∧ (s.core c).faultReg = 0 ∧ (s.core c).flights = [] ∧ (s.store c).rec0.valid = false ∧
       (s.store c).rec1.valid = false ∧ (s.store c).ledger = 0) ∧
     s.fld rPwrEnvLim 48 16 = 4000 ∧ s.fld rPwrEnvLim 32 16 = 550 ∧ s.fld rPwrEnvRamp 48 16 = 400 ∧ s.fld rPwrEnvRamp 32 16 = 400 ∧
     s.rbit rPwrEnvHoist 63 = false ∧ s.reg rPwrAlertMask = 0xFFF ∧ s.fld rThmCfg 56 8 = 105 ∧ s.fld rThmCfg 48 8 = 95 ∧
     s.rbit rBstSched 63 = true ∧ s.fld rBstSched 32 16 = 168 ∧ s.fld rBstSched 16 16 = 30 ∧ s.fld rTrcCtl 58 4 = 15 ∧
     s.fld rTrcCtl 0 32 = 0 ∧ s.fld rMgtUpdCfg 0 16 = 300 ∧ s.updState = 0 ∧
     (∀ p : Fin 4, s.fld (rTrcBuf p.val) 48 16 = 128 ∧ s.rbit (rScrubCtl p) 63 = true ∧ s.fld (rScrubCtl p) 32 16 = 24 ∧
       s.rbit (rRstWfd p) 63 = true ∧ s.rbit (rRstWfd p) 62 = true ∧ s.reg (rRstCtl p) = 0 ∧ s.reg (rRstStat p) = 0) ∧
     (∀ d, s.fld (rColCfg d) 32 16 = 256 ∧ s.fld (rColCfg d) 16 16 = 100 ∧ s.fld (rColCfg d) 0 16 = 10) ∧
     (∀ n, n < 36 → s.rbit (rPort n) 49 = true ∧ s.portState n = 0 ∧ s.fld (rPort n) 54 4 = portRole n) ∧
     (∀ r, r < 64 → s.ringEn r = false ∧ s.winValid r = false ∧ s.rbit (rSgCfg r) 63 = false) ∧
     (∀ i, i < 152 → s.reg (rObsCnt i) = 0 ∧ mget (fun _ => 0) s.cnt i = 0) ∧
     s.mem.pkg = [] ∧ s.mem.loc = []) ∧
  (State.reset.mem.wf = true ∧ State.reset.numbered ∧ State.reset.groupsOk)

/-- No step takes the memories out of their canonical form: whatever command stands in front, package memory, core-local memory and
their Tile Check Records go on listing each address once, in rising order, and nothing that reads as unwritten memory does. -/
def Obligations.MemoryStaysCanonical : Prop :=
  ∀ (s t : State), s.mem.wf = true → step s = .next t → t.mem.wf = true

/-- No step gives an operation in flight, or an operation at a point of coherence, the number of another, or a core a group slot
that is none of the 64. -/
def Obligations.NumbersStayUnique : Prop :=
  ∀ (s t : State), s.numbered → s.groupsOk → step s = .next t → t.numbered ∧ t.groupsOk
end

