-- ==== Sys2Proof/Laws/Bits.lean ====
section
/-! SUPPORT. Laws of packed words: an element of what was built, a field of what was set. -/

namespace Sys2Proof.Machine

theorem packNat_lt (w : Nat) (l : List Nat) : packNat w l < 2 ^ (w * l.length) := by
  induction l with
  | nil => simp [packNat]
  | cons a r ih =>
    simp only [packNat, List.length_cons, Nat.mul_add, Nat.mul_one]
    have h1 : a % 2 ^ w < 2 ^ w := Nat.mod_lt _ (Nat.two_pow_pos w)
    have h2 : packNat w r + 1 ≤ 2 ^ (w * r.length) := ih
    calc a % 2 ^ w + 2 ^ w * packNat w r < 2 ^ w * (packNat w r + 1) := by rw [Nat.mul_add]; omega
      _ ≤ 2 ^ w * 2 ^ (w * r.length) := Nat.mul_le_mul_left _ h2
      _ = 2 ^ (w * r.length + w) := by rw [← Nat.pow_add, Nat.add_comm]

/-- Digit `i` of a packed number. -/
theorem packNat_digit (w : Nat) (l : List Nat) (i : Nat) (h : i < l.length) :
    packNat w l / 2 ^ (w * i) % 2 ^ w = l[i] % 2 ^ w := by
  induction l generalizing i with
  | nil => simp at h
  | cons a r ih =>
    have hw := Nat.two_pow_pos w
    have ha : a % 2 ^ w < 2 ^ w := Nat.mod_lt _ hw
    cases i with
    | zero => simp [packNat, Nat.add_mul_mod_self_left]
    | succ i =>
      have hi : i < r.length := by simpa using h
      simp only [packNat, List.getElem_cons_succ]
      rw [Nat.mul_add, Nat.mul_one, Nat.add_comm (w * i) w, Nat.pow_add, ← Nat.div_div_eq_div_mul,
        Nat.add_mul_div_left _ _ hw, Nat.div_eq_of_lt ha, Nat.zero_add]
      exact ih i hi

/-- Element `i` of a built register: the new value where it is enabled, the old element elsewhere. -/
theorem vElem_vBuild (old : VReg) (w : Nat) (on : Nat → Bool) (f : Nat → Nat) (i : Nat) (hi : i < 4096 / w) :
    vElem (vBuild old w on f) w i = if on i then f i % 2 ^ w else vElem old w i := by
  have hw : w * (4096 / w) ≤ 4096 := Nat.mul_div_le 4096 w
  generalize hl : (List.range (4096 / w)).map (fun i => if on i then f i else vElem old w i) = l
  have hlen : l.length = 4096 / w := by simp [← hl]
  have hlt : packNat w l < 2 ^ 4096 :=
    Nat.lt_of_lt_of_le (packNat_lt w l) (Nat.pow_le_pow_right (by decide) (by rw [hlen]; exact hw))
  have hd := packNat_digit w l i (by rw [hlen]; exact hi)
  have hb : vElem (vBuild old w on f) w i = packNat w l / 2 ^ (w * i) % 2 ^ w := by
    unfold vElem vBuild bitsAt
    rw [hl, BitVec.toNat_ofNat, Nat.mod_eq_of_lt hlt, Nat.shiftRight_eq_div_pow]
  rw [hb, hd]
  have hel : l[i]'(by rw [hlen]; exact hi) = if on i then f i else vElem old w i := by simp [← hl]
  rw [hel]
  split
  · rfl
  · simp [vElem, bitsAt]

end Sys2Proof.Machine
end

