-- ==== Sys2Proof/Laws/Map.lean ====
section
/-! SUPPORT. Laws of the sparse arrays: reading what was written, and the canonical form. -/

namespace Sys2Proof.Machine

section
variable {α : Type} [DecidableEq α] (d : Nat → α)

/-! ## Reading -/

omit [DecidableEq α] in
theorem mget_of_absent (m : Map α) (k : Nat) (h : ∀ e ∈ m, e.1 ≠ k) : mget d m k = d k := by
  induction m with
  | nil => rfl
  | cons e r ih =>
    obtain ⟨j, v⟩ := e
    have hj : j ≠ k := h _ (List.mem_cons_self ..)
    simp [mget, hj, ih fun e he => h e (List.mem_cons_of_mem _ he)]

omit [DecidableEq α] in
theorem mget_append_absent (a b : Map α) (k : Nat) (h : ∀ e ∈ a, e.1 ≠ k) : mget d (a ++ b) k = mget d b k := by
  induction a with
  | nil => rfl
  | cons e r ih =>
    obtain ⟨j, v⟩ := e
    have hj : j ≠ k := h _ (List.mem_cons_self ..)
    simp [mget, hj, ih fun e he => h e (List.mem_cons_of_mem _ he)]

omit [DecidableEq α] in
theorem mget_append_of_absent (a b : Map α) (k : Nat) (h : ∀ e ∈ b, e.1 ≠ k) : mget d (a ++ b) k = mget d a k := by
  induction a with
  | nil => simpa [mget] using mget_of_absent d b k h
  | cons e r ih =>
    obtain ⟨j, v⟩ := e
    simp [mget, ih]

omit [DecidableEq α] in
theorem mget_filter (m : Map α) (p : Nat → Bool) (k : Nat) :
    mget d (m.filter fun e => p e.1) k = if p k then mget d m k else d k := by
  induction m with
  | nil => simp [mget]
  | cons e r ih =>
    obtain ⟨j, v⟩ := e
    by_cases hj : j = k
    · subst hj
      cases hp : p j <;> simp [hp, mget]
      simpa [hp] using ih
    · cases hp : p j <;> simp [hp, mget, hj, ih]

theorem mem_mtab (f : Nat → α) (n lo : Nat) (e : Nat × α) (he : e ∈ mtab d f n lo) :
    lo ≤ e.1 ∧ e.1 < lo + n ∧ e.2 = f e.1 ∧ f e.1 ≠ d e.1 := by
  induction n generalizing lo with
  | zero => simp [mtab] at he
  | succ n ih =>
    unfold mtab at he
    split at he
    · obtain ⟨a, b, c⟩ := ih (lo + 1) he; exact ⟨by omega, by omega, c⟩
    · rename_i hne
      rcases List.mem_cons.1 he with rfl | he
      · exact ⟨Nat.le_refl _, by simp, rfl, hne⟩
      · obtain ⟨a, b, c⟩ := ih (lo + 1) he; exact ⟨by omega, by omega, c⟩

theorem mget_mtab (f : Nat → α) (n lo k : Nat) (h : lo ≤ k ∧ k < lo + n) : mget d (mtab d f n lo) k = f k := by
  induction n generalizing lo with
  | zero => omega
  | succ n ih =>
    unfold mtab
    by_cases hk : lo = k
    · subst hk
      split
      · rename_i hf
        rw [hf, mget_of_absent]
        intro e he; have := (mem_mtab d f n (lo + 1) e he).1; omega
      · simp [mget]
    · split <;> simp [mget, hk, ih (lo + 1) (by omega)]

/-- Reading an array after a range of it has been written. -/
theorem mget_mfill (m : Map α) (lo n : Nat) (f : Nat → α) (k : Nat) :
    mget d (mfill d m lo n f) k = if lo ≤ k ∧ k < lo + n then f k else mget d m k := by
  unfold mfill
  have low : ∀ e ∈ m.filter (fun e => decide (e.1 < lo)), e.1 < lo := fun e he => by simpa using (List.mem_filter.1 he).2
  have high : ∀ e ∈ m.filter (fun e => decide (lo + n ≤ e.1)), lo + n ≤ e.1 := fun e he => by
    simpa using (List.mem_filter.1 he).2
  by_cases h : lo ≤ k ∧ k < lo + n
  · rw [if_pos h, mget_append_of_absent, mget_append_absent, mget_mtab d f n lo k h]
    · intro e he; have := low e he; omega
    · intro e he; have := high e he; omega
  · rw [if_neg h]
    by_cases hlo : k < lo
    · rw [mget_append_of_absent, mget_append_of_absent, mget_filter d m (fun j => decide (j < lo))]
      · simp [hlo]
      · intro e he; have := mem_mtab d f n lo e he; omega
      · intro e he; have := high e he; omega
    · rw [mget_append_absent, mget_filter d m (fun j => decide (lo + n ≤ j))]
      · simp [show lo + n ≤ k by omega]
      · intro e he
        rcases List.mem_append.1 he with he | he
        · have := low e he; omega
        · have := mem_mtab d f n lo e he; omega

omit [DecidableEq α] in
@[simp] theorem mget_nil (k : Nat) : mget d [] k = d k := rfl

/-- Reading an array after one key of it has been written. -/
theorem mget_mput (m : Map α) (k j : Nat) (v : α) : mget d (mput d m k v) j = if k = j then v else mget d m j := by
  unfold mput
  rw [mget_mfill]
  by_cases h : k = j
  · subst h; simp
  · rw [if_neg h, if_neg (by omega)]

@[simp] theorem mget_mput_self (m : Map α) (k : Nat) (v : α) : mget d (mput d m k v) k = v := by simp [mget_mput]

theorem mget_mput_ne (m : Map α) (k j : Nat) (v : α) (h : k ≠ j) : mget d (mput d m k v) j = mget d m j := by
  simp [mget_mput, h]

@[simp] theorem mget_mmod_self (m : Map α) (k : Nat) (f : α → α) : mget d (mmod d m k f) k = f (mget d m k) := by
  simp [mmod]

/-! ## The canonical form -/

omit [DecidableEq α] in
/-- The canonical form as a proposition. -/
theorem mrising_some (m : Map α) (lo : Nat) :
    mrising (some lo) m = true ↔ (∀ e ∈ m, lo < e.1) ∧ m.Pairwise (fun a b => a.1 < b.1) := by
  induction m generalizing lo with
  | nil => simp [mrising]
  | cons e r ih =>
    obtain ⟨k, v⟩ := e
    simp only [mrising, Bool.and_eq_true, decide_eq_true_eq, ih, List.mem_cons, forall_eq_or_imp, List.pairwise_cons]
    constructor
    · rintro ⟨a, b, c⟩; exact ⟨⟨a, fun e he => Nat.lt_trans a (b e he)⟩, b, c⟩
    · rintro ⟨⟨a, _⟩, b, c⟩; exact ⟨a, b, c⟩

omit [DecidableEq α] in
theorem mrising_none (m : Map α) : mrising none m = true ↔ m.Pairwise (fun a b => a.1 < b.1) := by
  cases m with
  | nil => simp [mrising]
  | cons e r => obtain ⟨k, v⟩ := e; simp [mrising, mrising_some]

theorem mwf_iff (m : Map α) :
    mwf d m = true ↔ m.Pairwise (fun a b => a.1 < b.1) ∧ ∀ e ∈ m, e.2 ≠ d e.1 := by
  simp [mwf, mnodef, mrising_none]

theorem mtab_pairwise (f : Nat → α) (n lo : Nat) : (mtab d f n lo).Pairwise (fun a b => a.1 < b.1) := by
  induction n generalizing lo with
  | zero => simp [mtab]
  | succ n ih =>
    unfold mtab
    split
    · exact ih _
    · refine List.pairwise_cons.2 ⟨fun e he => ?_, ih _⟩
      have := (mem_mtab d f n (lo + 1) e he).1
      show lo < e.1
      omega

/-- Writing a range keeps the canonical form. -/
theorem mwf_mfill (m : Map α) (lo n : Nat) (f : Nat → α) (h : mwf d m = true) : mwf d (mfill d m lo n f) = true := by
  rw [mwf_iff] at h ⊢
  obtain ⟨hp, hd⟩ := h
  unfold mfill
  have low : ∀ e ∈ m.filter (fun e => decide (e.1 < lo)), e.1 < lo := fun e he => by simpa using (List.mem_filter.1 he).2
  have high : ∀ e ∈ m.filter (fun e => decide (lo + n ≤ e.1)), lo + n ≤ e.1 := fun e he => by
    simpa using (List.mem_filter.1 he).2
  refine ⟨List.pairwise_append.2 ⟨List.pairwise_append.2 ⟨hp.filter _, mtab_pairwise d f n lo, ?_⟩, hp.filter _, ?_⟩, ?_⟩
  · intro a ha b hb; have := low a ha; have := mem_mtab d f n lo b hb; omega
  · intro a ha b hb
    have := high b hb
    rcases List.mem_append.1 ha with ha | ha
    · have := low a ha; omega
    · have := mem_mtab d f n lo a ha; omega
  · intro e he
    rcases List.mem_append.1 he with he | he
    · rcases List.mem_append.1 he with he | he
      · exact hd e (List.mem_filter.1 he).1
      · obtain ⟨_, _, a, b⟩ := mem_mtab d f n lo e he; rw [a]; exact b
    · exact hd e (List.mem_filter.1 he).1

theorem mwf_mput (m : Map α) (k : Nat) (v : α) (h : mwf d m = true) : mwf d (mput d m k v) = true := mwf_mfill d m k 1 _ h

theorem mwf_mmod (m : Map α) (k : Nat) (f : α → α) (h : mwf d m = true) : mwf d (mmod d m k f) = true := mwf_mput d m k _ h

theorem mwf_mtab (f : Nat → α) (n lo : Nat) : mwf d (mtab d f n lo) = true :=
  (mwf_iff d _).2 ⟨mtab_pairwise d f n lo, fun e he => by obtain ⟨_, _, a, b⟩ := mem_mtab d f n lo e he; rw [a]; exact b⟩

/-- Arrays in canonical form that read alike are equal. -/
theorem mwf_ext (a b : Map α) (ha : mwf d a = true) (hb : mwf d b = true) (h : ∀ k, mget d a k = mget d b k) : a = b := by
  rw [mwf_iff] at ha hb
  induction a generalizing b with
  | nil =>
    cases b with
    | nil => rfl
    | cons e r => exact absurd (by simpa [mget] using h e.1) (Ne.symm (hb.2 e (List.mem_cons_self ..)))
  | cons x r ih =>
    cases b with
    | nil => exact absurd (by simpa [mget] using h x.1) (ha.2 x (List.mem_cons_self ..))
    | cons y q =>
      obtain ⟨i, v⟩ := x
      obtain ⟨j, w⟩ := y
      have hr := List.pairwise_cons.1 ha.1
      have hq := List.pairwise_cons.1 hb.1
      have hij : i = j := by
        rcases Nat.lt_trichotomy i j with lt | eq | gt
        · exfalso
          have e : mget d ((j, w) :: q) i = d i := mget_of_absent d _ i fun e he => by
            rcases List.mem_cons.1 he with rfl | he
            · show j ≠ i; omega
            · have : j < e.1 := hq.1 e he; omega
          have := h i
          rw [e] at this
          exact ha.2 (i, v) (List.mem_cons_self ..) (by simpa [mget] using this)
        · exact eq
        · exfalso
          have e : mget d ((i, v) :: r) j = d j := mget_of_absent d _ j fun e he => by
            rcases List.mem_cons.1 he with rfl | he
            · show i ≠ j; omega
            · have : i < e.1 := hr.1 e he; omega
          have := h j
          rw [e] at this
          exact hb.2 (j, w) (List.mem_cons_self ..) (by simpa [mget] using this.symm)
      subst hij
      have hv : v = w := by simpa [mget] using h i
      subst hv
      congr 1
      refine ih q ⟨hr.2, fun e he => ha.2 e (List.mem_cons_of_mem _ he)⟩ ⟨hq.2, fun e he => hb.2 e (List.mem_cons_of_mem _ he)⟩ ?_
      intro k
      by_cases hk : i = k
      · subst hk
        rw [mget_of_absent d r i fun e he => by have : i < e.1 := hr.1 e he; omega,
          mget_of_absent d q i fun e he => by have : i < e.1 := hq.1 e he; omega]
      · simpa [mget, hk] using h k

end

end Sys2Proof.Machine
end

