-- ==== Sys2Proof/Laws/State.lean ====
section
/-! SUPPORT. What the updates of the state leave unchanged, field by field, and what they give to a read. -/

namespace Sys2Proof.Machine

/-! ## State.setCore -/

@[simp] theorem State.setCore_pending (s : State) (c : CoreAddr) (k : Core) : (s.setCore c k).pending = s.pending := rfl
@[simp] theorem State.setCore_now (s : State) (c : CoreAddr) (k : Core) : (s.setCore c k).now = s.now := rfl
@[simp] theorem State.setCore_freeCtr (s : State) (c : CoreAddr) (k : Core) : (s.setCore c k).freeCtr = s.freeCtr := rfl
@[simp] theorem State.setCore_out (s : State) (c : CoreAddr) (k : Core) : (s.setCore c k).out = s.out := rfl
@[simp] theorem State.setCore_stores (s : State) (c : CoreAddr) (k : Core) : (s.setCore c k).stores = s.stores := rfl
@[simp] theorem State.setCore_regs (s : State) (c : CoreAddr) (k : Core) : (s.setCore c k).regs = s.regs := rfl
@[simp] theorem State.setCore_cnt (s : State) (c : CoreAddr) (k : Core) : (s.setCore c k).cnt = s.cnt := rfl
@[simp] theorem State.setCore_mem (s : State) (c : CoreAddr) (k : Core) : (s.setCore c k).mem = s.mem := rfl
@[simp] theorem State.setCore_parts (s : State) (c : CoreAddr) (k : Core) : (s.setCore c k).parts = s.parts := rfl
@[simp] theorem State.setCore_fab (s : State) (c : CoreAddr) (k : Core) : (s.setCore c k).fab = s.fab := rfl
@[simp] theorem State.setCore_colls (s : State) (c : CoreAddr) (k : Core) : (s.setCore c k).colls = s.colls := rfl
@[simp] theorem State.setCore_launches (s : State) (c : CoreAddr) (k : Core) : (s.setCore c k).launches = s.launches := rfl
@[simp] theorem State.setCore_groups (s : State) (c : CoreAddr) (k : Core) : (s.setCore c k).groups = s.groups := rfl
@[simp] theorem State.setCore_barNet (s : State) (c : CoreAddr) (k : Core) : (s.setCore c k).barNet = s.barNet := rfl
@[simp] theorem State.setCore_host (s : State) (c : CoreAddr) (k : Core) : (s.setCore c k).host = s.host := rfl
@[simp] theorem State.setCore_sys (s : State) (c : CoreAddr) (k : Core) : (s.setCore c k).sys = s.sys := rfl
@[simp] theorem State.setCore_resets (s : State) (c : CoreAddr) (k : Core) : (s.setCore c k).resets = s.resets := rfl
@[simp] theorem State.setCore_ftc (s : State) (c : CoreAddr) (k : Core) : (s.setCore c k).ftc = s.ftc := rfl

/-! ## State.modCore -/

@[simp] theorem State.modCore_pending (s : State) (c : CoreAddr) (f : Core → Core) : (s.modCore c f).pending = s.pending := rfl
@[simp] theorem State.modCore_now (s : State) (c : CoreAddr) (f : Core → Core) : (s.modCore c f).now = s.now := rfl
@[simp] theorem State.modCore_freeCtr (s : State) (c : CoreAddr) (f : Core → Core) : (s.modCore c f).freeCtr = s.freeCtr := rfl
@[simp] theorem State.modCore_out (s : State) (c : CoreAddr) (f : Core → Core) : (s.modCore c f).out = s.out := rfl
@[simp] theorem State.modCore_stores (s : State) (c : CoreAddr) (f : Core → Core) : (s.modCore c f).stores = s.stores := rfl
@[simp] theorem State.modCore_regs (s : State) (c : CoreAddr) (f : Core → Core) : (s.modCore c f).regs = s.regs := rfl
@[simp] theorem State.modCore_cnt (s : State) (c : CoreAddr) (f : Core → Core) : (s.modCore c f).cnt = s.cnt := rfl
@[simp] theorem State.modCore_mem (s : State) (c : CoreAddr) (f : Core → Core) : (s.modCore c f).mem = s.mem := rfl
@[simp] theorem State.modCore_parts (s : State) (c : CoreAddr) (f : Core → Core) : (s.modCore c f).parts = s.parts := rfl
@[simp] theorem State.modCore_fab (s : State) (c : CoreAddr) (f : Core → Core) : (s.modCore c f).fab = s.fab := rfl
@[simp] theorem State.modCore_colls (s : State) (c : CoreAddr) (f : Core → Core) : (s.modCore c f).colls = s.colls := rfl
@[simp] theorem State.modCore_launches (s : State) (c : CoreAddr) (f : Core → Core) : (s.modCore c f).launches = s.launches := rfl
@[simp] theorem State.modCore_groups (s : State) (c : CoreAddr) (f : Core → Core) : (s.modCore c f).groups = s.groups := rfl
@[simp] theorem State.modCore_barNet (s : State) (c : CoreAddr) (f : Core → Core) : (s.modCore c f).barNet = s.barNet := rfl
@[simp] theorem State.modCore_host (s : State) (c : CoreAddr) (f : Core → Core) : (s.modCore c f).host = s.host := rfl
@[simp] theorem State.modCore_sys (s : State) (c : CoreAddr) (f : Core → Core) : (s.modCore c f).sys = s.sys := rfl
@[simp] theorem State.modCore_resets (s : State) (c : CoreAddr) (f : Core → Core) : (s.modCore c f).resets = s.resets := rfl
@[simp] theorem State.modCore_ftc (s : State) (c : CoreAddr) (f : Core → Core) : (s.modCore c f).ftc = s.ftc := rfl

/-! ## State.setStore -/

@[simp] theorem State.setStore_pending (s : State) (c : CoreAddr) (k : CoreStore) : (s.setStore c k).pending = s.pending := rfl
@[simp] theorem State.setStore_now (s : State) (c : CoreAddr) (k : CoreStore) : (s.setStore c k).now = s.now := rfl
@[simp] theorem State.setStore_freeCtr (s : State) (c : CoreAddr) (k : CoreStore) : (s.setStore c k).freeCtr = s.freeCtr := rfl
@[simp] theorem State.setStore_out (s : State) (c : CoreAddr) (k : CoreStore) : (s.setStore c k).out = s.out := rfl
@[simp] theorem State.setStore_cores (s : State) (c : CoreAddr) (k : CoreStore) : (s.setStore c k).cores = s.cores := rfl
@[simp] theorem State.setStore_regs (s : State) (c : CoreAddr) (k : CoreStore) : (s.setStore c k).regs = s.regs := rfl
@[simp] theorem State.setStore_cnt (s : State) (c : CoreAddr) (k : CoreStore) : (s.setStore c k).cnt = s.cnt := rfl
@[simp] theorem State.setStore_mem (s : State) (c : CoreAddr) (k : CoreStore) : (s.setStore c k).mem = s.mem := rfl
@[simp] theorem State.setStore_parts (s : State) (c : CoreAddr) (k : CoreStore) : (s.setStore c k).parts = s.parts := rfl
@[simp] theorem State.setStore_fab (s : State) (c : CoreAddr) (k : CoreStore) : (s.setStore c k).fab = s.fab := rfl
@[simp] theorem State.setStore_colls (s : State) (c : CoreAddr) (k : CoreStore) : (s.setStore c k).colls = s.colls := rfl
@[simp] theorem State.setStore_launches (s : State) (c : CoreAddr) (k : CoreStore) : (s.setStore c k).launches = s.launches := rfl
@[simp] theorem State.setStore_groups (s : State) (c : CoreAddr) (k : CoreStore) : (s.setStore c k).groups = s.groups := rfl
@[simp] theorem State.setStore_barNet (s : State) (c : CoreAddr) (k : CoreStore) : (s.setStore c k).barNet = s.barNet := rfl
@[simp] theorem State.setStore_host (s : State) (c : CoreAddr) (k : CoreStore) : (s.setStore c k).host = s.host := rfl
@[simp] theorem State.setStore_sys (s : State) (c : CoreAddr) (k : CoreStore) : (s.setStore c k).sys = s.sys := rfl
@[simp] theorem State.setStore_resets (s : State) (c : CoreAddr) (k : CoreStore) : (s.setStore c k).resets = s.resets := rfl
@[simp] theorem State.setStore_ftc (s : State) (c : CoreAddr) (k : CoreStore) : (s.setStore c k).ftc = s.ftc := rfl

/-! ## State.modStore -/

@[simp] theorem State.modStore_pending (s : State) (c : CoreAddr) (f : CoreStore → CoreStore) : (s.modStore c f).pending = s.pending := rfl
@[simp] theorem State.modStore_now (s : State) (c : CoreAddr) (f : CoreStore → CoreStore) : (s.modStore c f).now = s.now := rfl
@[simp] theorem State.modStore_freeCtr (s : State) (c : CoreAddr) (f : CoreStore → CoreStore) : (s.modStore c f).freeCtr = s.freeCtr := rfl
@[simp] theorem State.modStore_out (s : State) (c : CoreAddr) (f : CoreStore → CoreStore) : (s.modStore c f).out = s.out := rfl
@[simp] theorem State.modStore_cores (s : State) (c : CoreAddr) (f : CoreStore → CoreStore) : (s.modStore c f).cores = s.cores := rfl
@[simp] theorem State.modStore_regs (s : State) (c : CoreAddr) (f : CoreStore → CoreStore) : (s.modStore c f).regs = s.regs := rfl
@[simp] theorem State.modStore_cnt (s : State) (c : CoreAddr) (f : CoreStore → CoreStore) : (s.modStore c f).cnt = s.cnt := rfl
@[simp] theorem State.modStore_mem (s : State) (c : CoreAddr) (f : CoreStore → CoreStore) : (s.modStore c f).mem = s.mem := rfl
@[simp] theorem State.modStore_parts (s : State) (c : CoreAddr) (f : CoreStore → CoreStore) : (s.modStore c f).parts = s.parts := rfl
@[simp] theorem State.modStore_fab (s : State) (c : CoreAddr) (f : CoreStore → CoreStore) : (s.modStore c f).fab = s.fab := rfl
@[simp] theorem State.modStore_colls (s : State) (c : CoreAddr) (f : CoreStore → CoreStore) : (s.modStore c f).colls = s.colls := rfl
@[simp] theorem State.modStore_launches (s : State) (c : CoreAddr) (f : CoreStore → CoreStore) : (s.modStore c f).launches = s.launches := rfl
@[simp] theorem State.modStore_groups (s : State) (c : CoreAddr) (f : CoreStore → CoreStore) : (s.modStore c f).groups = s.groups := rfl
@[simp] theorem State.modStore_barNet (s : State) (c : CoreAddr) (f : CoreStore → CoreStore) : (s.modStore c f).barNet = s.barNet := rfl
@[simp] theorem State.modStore_host (s : State) (c : CoreAddr) (f : CoreStore → CoreStore) : (s.modStore c f).host = s.host := rfl
@[simp] theorem State.modStore_sys (s : State) (c : CoreAddr) (f : CoreStore → CoreStore) : (s.modStore c f).sys = s.sys := rfl
@[simp] theorem State.modStore_resets (s : State) (c : CoreAddr) (f : CoreStore → CoreStore) : (s.modStore c f).resets = s.resets := rfl
@[simp] theorem State.modStore_ftc (s : State) (c : CoreAddr) (f : CoreStore → CoreStore) : (s.modStore c f).ftc = s.ftc := rfl

/-! ## State.setPart -/

@[simp] theorem State.setPart_pending (s : State) (p : Fin 4) (x : Part) : (s.setPart p x).pending = s.pending := rfl
@[simp] theorem State.setPart_now (s : State) (p : Fin 4) (x : Part) : (s.setPart p x).now = s.now := rfl
@[simp] theorem State.setPart_freeCtr (s : State) (p : Fin 4) (x : Part) : (s.setPart p x).freeCtr = s.freeCtr := rfl
@[simp] theorem State.setPart_out (s : State) (p : Fin 4) (x : Part) : (s.setPart p x).out = s.out := rfl
@[simp] theorem State.setPart_cores (s : State) (p : Fin 4) (x : Part) : (s.setPart p x).cores = s.cores := rfl
@[simp] theorem State.setPart_stores (s : State) (p : Fin 4) (x : Part) : (s.setPart p x).stores = s.stores := rfl
@[simp] theorem State.setPart_regs (s : State) (p : Fin 4) (x : Part) : (s.setPart p x).regs = s.regs := rfl
@[simp] theorem State.setPart_cnt (s : State) (p : Fin 4) (x : Part) : (s.setPart p x).cnt = s.cnt := rfl
@[simp] theorem State.setPart_mem (s : State) (p : Fin 4) (x : Part) : (s.setPart p x).mem = s.mem := rfl
@[simp] theorem State.setPart_fab (s : State) (p : Fin 4) (x : Part) : (s.setPart p x).fab = s.fab := rfl
@[simp] theorem State.setPart_colls (s : State) (p : Fin 4) (x : Part) : (s.setPart p x).colls = s.colls := rfl
@[simp] theorem State.setPart_launches (s : State) (p : Fin 4) (x : Part) : (s.setPart p x).launches = s.launches := rfl
@[simp] theorem State.setPart_groups (s : State) (p : Fin 4) (x : Part) : (s.setPart p x).groups = s.groups := rfl
@[simp] theorem State.setPart_barNet (s : State) (p : Fin 4) (x : Part) : (s.setPart p x).barNet = s.barNet := rfl
@[simp] theorem State.setPart_host (s : State) (p : Fin 4) (x : Part) : (s.setPart p x).host = s.host := rfl
@[simp] theorem State.setPart_sys (s : State) (p : Fin 4) (x : Part) : (s.setPart p x).sys = s.sys := rfl
@[simp] theorem State.setPart_resets (s : State) (p : Fin 4) (x : Part) : (s.setPart p x).resets = s.resets := rfl
@[simp] theorem State.setPart_ftc (s : State) (p : Fin 4) (x : Part) : (s.setPart p x).ftc = s.ftc := rfl

/-! ## State.modPart -/

@[simp] theorem State.modPart_pending (s : State) (p : Fin 4) (f : Part → Part) : (s.modPart p f).pending = s.pending := rfl
@[simp] theorem State.modPart_now (s : State) (p : Fin 4) (f : Part → Part) : (s.modPart p f).now = s.now := rfl
@[simp] theorem State.modPart_freeCtr (s : State) (p : Fin 4) (f : Part → Part) : (s.modPart p f).freeCtr = s.freeCtr := rfl
@[simp] theorem State.modPart_out (s : State) (p : Fin 4) (f : Part → Part) : (s.modPart p f).out = s.out := rfl
@[simp] theorem State.modPart_cores (s : State) (p : Fin 4) (f : Part → Part) : (s.modPart p f).cores = s.cores := rfl
@[simp] theorem State.modPart_stores (s : State) (p : Fin 4) (f : Part → Part) : (s.modPart p f).stores = s.stores := rfl
@[simp] theorem State.modPart_regs (s : State) (p : Fin 4) (f : Part → Part) : (s.modPart p f).regs = s.regs := rfl
@[simp] theorem State.modPart_cnt (s : State) (p : Fin 4) (f : Part → Part) : (s.modPart p f).cnt = s.cnt := rfl
@[simp] theorem State.modPart_mem (s : State) (p : Fin 4) (f : Part → Part) : (s.modPart p f).mem = s.mem := rfl
@[simp] theorem State.modPart_fab (s : State) (p : Fin 4) (f : Part → Part) : (s.modPart p f).fab = s.fab := rfl
@[simp] theorem State.modPart_colls (s : State) (p : Fin 4) (f : Part → Part) : (s.modPart p f).colls = s.colls := rfl
@[simp] theorem State.modPart_launches (s : State) (p : Fin 4) (f : Part → Part) : (s.modPart p f).launches = s.launches := rfl
@[simp] theorem State.modPart_groups (s : State) (p : Fin 4) (f : Part → Part) : (s.modPart p f).groups = s.groups := rfl
@[simp] theorem State.modPart_barNet (s : State) (p : Fin 4) (f : Part → Part) : (s.modPart p f).barNet = s.barNet := rfl
@[simp] theorem State.modPart_host (s : State) (p : Fin 4) (f : Part → Part) : (s.modPart p f).host = s.host := rfl
@[simp] theorem State.modPart_sys (s : State) (p : Fin 4) (f : Part → Part) : (s.modPart p f).sys = s.sys := rfl
@[simp] theorem State.modPart_resets (s : State) (p : Fin 4) (f : Part → Part) : (s.modPart p f).resets = s.resets := rfl
@[simp] theorem State.modPart_ftc (s : State) (p : Fin 4) (f : Part → Part) : (s.modPart p f).ftc = s.ftc := rfl

/-! ## State.setGroup -/

@[simp] theorem State.setGroup_pending (s : State) (g : Nat) (x : Group) : (s.setGroup g x).pending = s.pending := rfl
@[simp] theorem State.setGroup_now (s : State) (g : Nat) (x : Group) : (s.setGroup g x).now = s.now := rfl
@[simp] theorem State.setGroup_freeCtr (s : State) (g : Nat) (x : Group) : (s.setGroup g x).freeCtr = s.freeCtr := rfl
@[simp] theorem State.setGroup_out (s : State) (g : Nat) (x : Group) : (s.setGroup g x).out = s.out := rfl
@[simp] theorem State.setGroup_cores (s : State) (g : Nat) (x : Group) : (s.setGroup g x).cores = s.cores := rfl
@[simp] theorem State.setGroup_stores (s : State) (g : Nat) (x : Group) : (s.setGroup g x).stores = s.stores := rfl
@[simp] theorem State.setGroup_regs (s : State) (g : Nat) (x : Group) : (s.setGroup g x).regs = s.regs := rfl
@[simp] theorem State.setGroup_cnt (s : State) (g : Nat) (x : Group) : (s.setGroup g x).cnt = s.cnt := rfl
@[simp] theorem State.setGroup_mem (s : State) (g : Nat) (x : Group) : (s.setGroup g x).mem = s.mem := rfl
@[simp] theorem State.setGroup_parts (s : State) (g : Nat) (x : Group) : (s.setGroup g x).parts = s.parts := rfl
@[simp] theorem State.setGroup_fab (s : State) (g : Nat) (x : Group) : (s.setGroup g x).fab = s.fab := rfl
@[simp] theorem State.setGroup_colls (s : State) (g : Nat) (x : Group) : (s.setGroup g x).colls = s.colls := rfl
@[simp] theorem State.setGroup_launches (s : State) (g : Nat) (x : Group) : (s.setGroup g x).launches = s.launches := rfl
@[simp] theorem State.setGroup_barNet (s : State) (g : Nat) (x : Group) : (s.setGroup g x).barNet = s.barNet := rfl
@[simp] theorem State.setGroup_host (s : State) (g : Nat) (x : Group) : (s.setGroup g x).host = s.host := rfl
@[simp] theorem State.setGroup_sys (s : State) (g : Nat) (x : Group) : (s.setGroup g x).sys = s.sys := rfl
@[simp] theorem State.setGroup_resets (s : State) (g : Nat) (x : Group) : (s.setGroup g x).resets = s.resets := rfl
@[simp] theorem State.setGroup_ftc (s : State) (g : Nat) (x : Group) : (s.setGroup g x).ftc = s.ftc := rfl

/-! ## State.modGroup -/

@[simp] theorem State.modGroup_pending (s : State) (g : Nat) (f : Group → Group) : (s.modGroup g f).pending = s.pending := rfl
@[simp] theorem State.modGroup_now (s : State) (g : Nat) (f : Group → Group) : (s.modGroup g f).now = s.now := rfl
@[simp] theorem State.modGroup_freeCtr (s : State) (g : Nat) (f : Group → Group) : (s.modGroup g f).freeCtr = s.freeCtr := rfl
@[simp] theorem State.modGroup_out (s : State) (g : Nat) (f : Group → Group) : (s.modGroup g f).out = s.out := rfl
@[simp] theorem State.modGroup_cores (s : State) (g : Nat) (f : Group → Group) : (s.modGroup g f).cores = s.cores := rfl
@[simp] theorem State.modGroup_stores (s : State) (g : Nat) (f : Group → Group) : (s.modGroup g f).stores = s.stores := rfl
@[simp] theorem State.modGroup_regs (s : State) (g : Nat) (f : Group → Group) : (s.modGroup g f).regs = s.regs := rfl
@[simp] theorem State.modGroup_cnt (s : State) (g : Nat) (f : Group → Group) : (s.modGroup g f).cnt = s.cnt := rfl
@[simp] theorem State.modGroup_mem (s : State) (g : Nat) (f : Group → Group) : (s.modGroup g f).mem = s.mem := rfl
@[simp] theorem State.modGroup_parts (s : State) (g : Nat) (f : Group → Group) : (s.modGroup g f).parts = s.parts := rfl
@[simp] theorem State.modGroup_fab (s : State) (g : Nat) (f : Group → Group) : (s.modGroup g f).fab = s.fab := rfl
@[simp] theorem State.modGroup_colls (s : State) (g : Nat) (f : Group → Group) : (s.modGroup g f).colls = s.colls := rfl
@[simp] theorem State.modGroup_launches (s : State) (g : Nat) (f : Group → Group) : (s.modGroup g f).launches = s.launches := rfl
@[simp] theorem State.modGroup_barNet (s : State) (g : Nat) (f : Group → Group) : (s.modGroup g f).barNet = s.barNet := rfl
@[simp] theorem State.modGroup_host (s : State) (g : Nat) (f : Group → Group) : (s.modGroup g f).host = s.host := rfl
@[simp] theorem State.modGroup_sys (s : State) (g : Nat) (f : Group → Group) : (s.modGroup g f).sys = s.sys := rfl
@[simp] theorem State.modGroup_resets (s : State) (g : Nat) (f : Group → Group) : (s.modGroup g f).resets = s.resets := rfl
@[simp] theorem State.modGroup_ftc (s : State) (g : Nat) (f : Group → Group) : (s.modGroup g f).ftc = s.ftc := rfl

/-! ## State.setApp -/

@[simp] theorem State.setApp_pending (s : State) (a : AppCore) (x : App) : (s.setApp a x).pending = s.pending := rfl
@[simp] theorem State.setApp_now (s : State) (a : AppCore) (x : App) : (s.setApp a x).now = s.now := rfl
@[simp] theorem State.setApp_freeCtr (s : State) (a : AppCore) (x : App) : (s.setApp a x).freeCtr = s.freeCtr := rfl
@[simp] theorem State.setApp_out (s : State) (a : AppCore) (x : App) : (s.setApp a x).out = s.out := rfl
@[simp] theorem State.setApp_cores (s : State) (a : AppCore) (x : App) : (s.setApp a x).cores = s.cores := rfl
@[simp] theorem State.setApp_stores (s : State) (a : AppCore) (x : App) : (s.setApp a x).stores = s.stores := rfl
@[simp] theorem State.setApp_regs (s : State) (a : AppCore) (x : App) : (s.setApp a x).regs = s.regs := rfl
@[simp] theorem State.setApp_cnt (s : State) (a : AppCore) (x : App) : (s.setApp a x).cnt = s.cnt := rfl
@[simp] theorem State.setApp_mem (s : State) (a : AppCore) (x : App) : (s.setApp a x).mem = s.mem := rfl
@[simp] theorem State.setApp_parts (s : State) (a : AppCore) (x : App) : (s.setApp a x).parts = s.parts := rfl
@[simp] theorem State.setApp_fab (s : State) (a : AppCore) (x : App) : (s.setApp a x).fab = s.fab := rfl
@[simp] theorem State.setApp_colls (s : State) (a : AppCore) (x : App) : (s.setApp a x).colls = s.colls := rfl
@[simp] theorem State.setApp_launches (s : State) (a : AppCore) (x : App) : (s.setApp a x).launches = s.launches := rfl
@[simp] theorem State.setApp_groups (s : State) (a : AppCore) (x : App) : (s.setApp a x).groups = s.groups := rfl
@[simp] theorem State.setApp_barNet (s : State) (a : AppCore) (x : App) : (s.setApp a x).barNet = s.barNet := rfl
@[simp] theorem State.setApp_sys (s : State) (a : AppCore) (x : App) : (s.setApp a x).sys = s.sys := rfl
@[simp] theorem State.setApp_resets (s : State) (a : AppCore) (x : App) : (s.setApp a x).resets = s.resets := rfl
@[simp] theorem State.setApp_ftc (s : State) (a : AppCore) (x : App) : (s.setApp a x).ftc = s.ftc := rfl

/-! ## State.setReg -/

@[simp] theorem State.setReg_pending (s : State) (a : Nat) (v : Word) : (s.setReg a v).pending = s.pending := rfl
@[simp] theorem State.setReg_now (s : State) (a : Nat) (v : Word) : (s.setReg a v).now = s.now := rfl
@[simp] theorem State.setReg_freeCtr (s : State) (a : Nat) (v : Word) : (s.setReg a v).freeCtr = s.freeCtr := rfl
@[simp] theorem State.setReg_out (s : State) (a : Nat) (v : Word) : (s.setReg a v).out = s.out := rfl
@[simp] theorem State.setReg_cores (s : State) (a : Nat) (v : Word) : (s.setReg a v).cores = s.cores := rfl
@[simp] theorem State.setReg_stores (s : State) (a : Nat) (v : Word) : (s.setReg a v).stores = s.stores := rfl
@[simp] theorem State.setReg_cnt (s : State) (a : Nat) (v : Word) : (s.setReg a v).cnt = s.cnt := rfl
@[simp] theorem State.setReg_mem (s : State) (a : Nat) (v : Word) : (s.setReg a v).mem = s.mem := rfl
@[simp] theorem State.setReg_parts (s : State) (a : Nat) (v : Word) : (s.setReg a v).parts = s.parts := rfl
@[simp] theorem State.setReg_fab (s : State) (a : Nat) (v : Word) : (s.setReg a v).fab = s.fab := rfl
@[simp] theorem State.setReg_colls (s : State) (a : Nat) (v : Word) : (s.setReg a v).colls = s.colls := rfl
@[simp] theorem State.setReg_launches (s : State) (a : Nat) (v : Word) : (s.setReg a v).launches = s.launches := rfl
@[simp] theorem State.setReg_groups (s : State) (a : Nat) (v : Word) : (s.setReg a v).groups = s.groups := rfl
@[simp] theorem State.setReg_barNet (s : State) (a : Nat) (v : Word) : (s.setReg a v).barNet = s.barNet := rfl
@[simp] theorem State.setReg_host (s : State) (a : Nat) (v : Word) : (s.setReg a v).host = s.host := rfl
@[simp] theorem State.setReg_sys (s : State) (a : Nat) (v : Word) : (s.setReg a v).sys = s.sys := rfl
@[simp] theorem State.setReg_resets (s : State) (a : Nat) (v : Word) : (s.setReg a v).resets = s.resets := rfl
@[simp] theorem State.setReg_ftc (s : State) (a : Nat) (v : Word) : (s.setReg a v).ftc = s.ftc := rfl

/-! ## State.modReg -/

@[simp] theorem State.modReg_pending (s : State) (a : Nat) (f : Word → Word) : (s.modReg a f).pending = s.pending := rfl
@[simp] theorem State.modReg_now (s : State) (a : Nat) (f : Word → Word) : (s.modReg a f).now = s.now := rfl
@[simp] theorem State.modReg_freeCtr (s : State) (a : Nat) (f : Word → Word) : (s.modReg a f).freeCtr = s.freeCtr := rfl
@[simp] theorem State.modReg_out (s : State) (a : Nat) (f : Word → Word) : (s.modReg a f).out = s.out := rfl
@[simp] theorem State.modReg_cores (s : State) (a : Nat) (f : Word → Word) : (s.modReg a f).cores = s.cores := rfl
@[simp] theorem State.modReg_stores (s : State) (a : Nat) (f : Word → Word) : (s.modReg a f).stores = s.stores := rfl
@[simp] theorem State.modReg_cnt (s : State) (a : Nat) (f : Word → Word) : (s.modReg a f).cnt = s.cnt := rfl
@[simp] theorem State.modReg_mem (s : State) (a : Nat) (f : Word → Word) : (s.modReg a f).mem = s.mem := rfl
@[simp] theorem State.modReg_parts (s : State) (a : Nat) (f : Word → Word) : (s.modReg a f).parts = s.parts := rfl
@[simp] theorem State.modReg_fab (s : State) (a : Nat) (f : Word → Word) : (s.modReg a f).fab = s.fab := rfl
@[simp] theorem State.modReg_colls (s : State) (a : Nat) (f : Word → Word) : (s.modReg a f).colls = s.colls := rfl
@[simp] theorem State.modReg_launches (s : State) (a : Nat) (f : Word → Word) : (s.modReg a f).launches = s.launches := rfl
@[simp] theorem State.modReg_groups (s : State) (a : Nat) (f : Word → Word) : (s.modReg a f).groups = s.groups := rfl
@[simp] theorem State.modReg_barNet (s : State) (a : Nat) (f : Word → Word) : (s.modReg a f).barNet = s.barNet := rfl
@[simp] theorem State.modReg_host (s : State) (a : Nat) (f : Word → Word) : (s.modReg a f).host = s.host := rfl
@[simp] theorem State.modReg_sys (s : State) (a : Nat) (f : Word → Word) : (s.modReg a f).sys = s.sys := rfl
@[simp] theorem State.modReg_resets (s : State) (a : Nat) (f : Word → Word) : (s.modReg a f).resets = s.resets := rfl
@[simp] theorem State.modReg_ftc (s : State) (a : Nat) (f : Word → Word) : (s.modReg a f).ftc = s.ftc := rfl

/-! ## State.setFld -/

@[simp] theorem State.setFld_pending (s : State) (a lo w v : Nat) : (s.setFld a lo w v).pending = s.pending := rfl
@[simp] theorem State.setFld_now (s : State) (a lo w v : Nat) : (s.setFld a lo w v).now = s.now := rfl
@[simp] theorem State.setFld_freeCtr (s : State) (a lo w v : Nat) : (s.setFld a lo w v).freeCtr = s.freeCtr := rfl
@[simp] theorem State.setFld_out (s : State) (a lo w v : Nat) : (s.setFld a lo w v).out = s.out := rfl
@[simp] theorem State.setFld_cores (s : State) (a lo w v : Nat) : (s.setFld a lo w v).cores = s.cores := rfl
@[simp] theorem State.setFld_stores (s : State) (a lo w v : Nat) : (s.setFld a lo w v).stores = s.stores := rfl
@[simp] theorem State.setFld_cnt (s : State) (a lo w v : Nat) : (s.setFld a lo w v).cnt = s.cnt := rfl
@[simp] theorem State.setFld_mem (s : State) (a lo w v : Nat) : (s.setFld a lo w v).mem = s.mem := rfl
@[simp] theorem State.setFld_parts (s : State) (a lo w v : Nat) : (s.setFld a lo w v).parts = s.parts := rfl
@[simp] theorem State.setFld_fab (s : State) (a lo w v : Nat) : (s.setFld a lo w v).fab = s.fab := rfl
@[simp] theorem State.setFld_colls (s : State) (a lo w v : Nat) : (s.setFld a lo w v).colls = s.colls := rfl
@[simp] theorem State.setFld_launches (s : State) (a lo w v : Nat) : (s.setFld a lo w v).launches = s.launches := rfl
@[simp] theorem State.setFld_groups (s : State) (a lo w v : Nat) : (s.setFld a lo w v).groups = s.groups := rfl
@[simp] theorem State.setFld_barNet (s : State) (a lo w v : Nat) : (s.setFld a lo w v).barNet = s.barNet := rfl
@[simp] theorem State.setFld_host (s : State) (a lo w v : Nat) : (s.setFld a lo w v).host = s.host := rfl
@[simp] theorem State.setFld_sys (s : State) (a lo w v : Nat) : (s.setFld a lo w v).sys = s.sys := rfl
@[simp] theorem State.setFld_resets (s : State) (a lo w v : Nat) : (s.setFld a lo w v).resets = s.resets := rfl
@[simp] theorem State.setFld_ftc (s : State) (a lo w v : Nat) : (s.setFld a lo w v).ftc = s.ftc := rfl

/-! ## State.setRBit -/

@[simp] theorem State.setRBit_pending (s : State) (a i : Nat) (b : Bool) : (s.setRBit a i b).pending = s.pending := rfl
@[simp] theorem State.setRBit_now (s : State) (a i : Nat) (b : Bool) : (s.setRBit a i b).now = s.now := rfl
@[simp] theorem State.setRBit_freeCtr (s : State) (a i : Nat) (b : Bool) : (s.setRBit a i b).freeCtr = s.freeCtr := rfl
@[simp] theorem State.setRBit_out (s : State) (a i : Nat) (b : Bool) : (s.setRBit a i b).out = s.out := rfl
@[simp] theorem State.setRBit_cores (s : State) (a i : Nat) (b : Bool) : (s.setRBit a i b).cores = s.cores := rfl
@[simp] theorem State.setRBit_stores (s : State) (a i : Nat) (b : Bool) : (s.setRBit a i b).stores = s.stores := rfl
@[simp] theorem State.setRBit_cnt (s : State) (a i : Nat) (b : Bool) : (s.setRBit a i b).cnt = s.cnt := rfl
@[simp] theorem State.setRBit_mem (s : State) (a i : Nat) (b : Bool) : (s.setRBit a i b).mem = s.mem := rfl
@[simp] theorem State.setRBit_parts (s : State) (a i : Nat) (b : Bool) : (s.setRBit a i b).parts = s.parts := rfl
@[simp] theorem State.setRBit_fab (s : State) (a i : Nat) (b : Bool) : (s.setRBit a i b).fab = s.fab := rfl
@[simp] theorem State.setRBit_colls (s : State) (a i : Nat) (b : Bool) : (s.setRBit a i b).colls = s.colls := rfl
@[simp] theorem State.setRBit_launches (s : State) (a i : Nat) (b : Bool) : (s.setRBit a i b).launches = s.launches := rfl
@[simp] theorem State.setRBit_groups (s : State) (a i : Nat) (b : Bool) : (s.setRBit a i b).groups = s.groups := rfl
@[simp] theorem State.setRBit_barNet (s : State) (a i : Nat) (b : Bool) : (s.setRBit a i b).barNet = s.barNet := rfl
@[simp] theorem State.setRBit_host (s : State) (a i : Nat) (b : Bool) : (s.setRBit a i b).host = s.host := rfl
@[simp] theorem State.setRBit_sys (s : State) (a i : Nat) (b : Bool) : (s.setRBit a i b).sys = s.sys := rfl
@[simp] theorem State.setRBit_resets (s : State) (a i : Nat) (b : Bool) : (s.setRBit a i b).resets = s.resets := rfl
@[simp] theorem State.setRBit_ftc (s : State) (a i : Nat) (b : Bool) : (s.setRBit a i b).ftc = s.ftc := rfl

/-! ## State.bump -/

@[simp] theorem State.bump_pending (s : State) (a lo w : Nat) : (s.bump a lo w).pending = s.pending := rfl
@[simp] theorem State.bump_now (s : State) (a lo w : Nat) : (s.bump a lo w).now = s.now := rfl
@[simp] theorem State.bump_freeCtr (s : State) (a lo w : Nat) : (s.bump a lo w).freeCtr = s.freeCtr := rfl
@[simp] theorem State.bump_out (s : State) (a lo w : Nat) : (s.bump a lo w).out = s.out := rfl
@[simp] theorem State.bump_cores (s : State) (a lo w : Nat) : (s.bump a lo w).cores = s.cores := rfl
@[simp] theorem State.bump_stores (s : State) (a lo w : Nat) : (s.bump a lo w).stores = s.stores := rfl
@[simp] theorem State.bump_cnt (s : State) (a lo w : Nat) : (s.bump a lo w).cnt = s.cnt := rfl
@[simp] theorem State.bump_mem (s : State) (a lo w : Nat) : (s.bump a lo w).mem = s.mem := rfl
@[simp] theorem State.bump_parts (s : State) (a lo w : Nat) : (s.bump a lo w).parts = s.parts := rfl
@[simp] theorem State.bump_fab (s : State) (a lo w : Nat) : (s.bump a lo w).fab = s.fab := rfl
@[simp] theorem State.bump_colls (s : State) (a lo w : Nat) : (s.bump a lo w).colls = s.colls := rfl
@[simp] theorem State.bump_launches (s : State) (a lo w : Nat) : (s.bump a lo w).launches = s.launches := rfl
@[simp] theorem State.bump_groups (s : State) (a lo w : Nat) : (s.bump a lo w).groups = s.groups := rfl
@[simp] theorem State.bump_barNet (s : State) (a lo w : Nat) : (s.bump a lo w).barNet = s.barNet := rfl
@[simp] theorem State.bump_host (s : State) (a lo w : Nat) : (s.bump a lo w).host = s.host := rfl
@[simp] theorem State.bump_sys (s : State) (a lo w : Nat) : (s.bump a lo w).sys = s.sys := rfl
@[simp] theorem State.bump_resets (s : State) (a lo w : Nat) : (s.bump a lo w).resets = s.resets := rfl
@[simp] theorem State.bump_ftc (s : State) (a lo w : Nat) : (s.bump a lo w).ftc = s.ftc := rfl

/-! ## State.emit -/

@[simp] theorem State.emit_pending (s : State) (o : Output) : (s.emit o).pending = s.pending := rfl
@[simp] theorem State.emit_now (s : State) (o : Output) : (s.emit o).now = s.now := rfl
@[simp] theorem State.emit_freeCtr (s : State) (o : Output) : (s.emit o).freeCtr = s.freeCtr := rfl
@[simp] theorem State.emit_cores (s : State) (o : Output) : (s.emit o).cores = s.cores := rfl
@[simp] theorem State.emit_stores (s : State) (o : Output) : (s.emit o).stores = s.stores := rfl
@[simp] theorem State.emit_regs (s : State) (o : Output) : (s.emit o).regs = s.regs := rfl
@[simp] theorem State.emit_cnt (s : State) (o : Output) : (s.emit o).cnt = s.cnt := rfl
@[simp] theorem State.emit_mem (s : State) (o : Output) : (s.emit o).mem = s.mem := rfl
@[simp] theorem State.emit_parts (s : State) (o : Output) : (s.emit o).parts = s.parts := rfl
@[simp] theorem State.emit_fab (s : State) (o : Output) : (s.emit o).fab = s.fab := rfl
@[simp] theorem State.emit_colls (s : State) (o : Output) : (s.emit o).colls = s.colls := rfl
@[simp] theorem State.emit_launches (s : State) (o : Output) : (s.emit o).launches = s.launches := rfl
@[simp] theorem State.emit_groups (s : State) (o : Output) : (s.emit o).groups = s.groups := rfl
@[simp] theorem State.emit_barNet (s : State) (o : Output) : (s.emit o).barNet = s.barNet := rfl
@[simp] theorem State.emit_host (s : State) (o : Output) : (s.emit o).host = s.host := rfl
@[simp] theorem State.emit_sys (s : State) (o : Output) : (s.emit o).sys = s.sys := rfl
@[simp] theorem State.emit_resets (s : State) (o : Output) : (s.emit o).resets = s.resets := rfl
@[simp] theorem State.emit_ftc (s : State) (o : Output) : (s.emit o).ftc = s.ftc := rfl

/-! ## State.draw -/

@[simp] theorem State.draw_pending (s : State) : (s.draw).pending = s.pending := rfl
@[simp] theorem State.draw_now (s : State) : (s.draw).now = s.now := rfl
@[simp] theorem State.draw_out (s : State) : (s.draw).out = s.out := rfl
@[simp] theorem State.draw_cores (s : State) : (s.draw).cores = s.cores := rfl
@[simp] theorem State.draw_stores (s : State) : (s.draw).stores = s.stores := rfl
@[simp] theorem State.draw_regs (s : State) : (s.draw).regs = s.regs := rfl
@[simp] theorem State.draw_cnt (s : State) : (s.draw).cnt = s.cnt := rfl
@[simp] theorem State.draw_mem (s : State) : (s.draw).mem = s.mem := rfl
@[simp] theorem State.draw_parts (s : State) : (s.draw).parts = s.parts := rfl
@[simp] theorem State.draw_fab (s : State) : (s.draw).fab = s.fab := rfl
@[simp] theorem State.draw_colls (s : State) : (s.draw).colls = s.colls := rfl
@[simp] theorem State.draw_launches (s : State) : (s.draw).launches = s.launches := rfl
@[simp] theorem State.draw_groups (s : State) : (s.draw).groups = s.groups := rfl
@[simp] theorem State.draw_barNet (s : State) : (s.draw).barNet = s.barNet := rfl
@[simp] theorem State.draw_host (s : State) : (s.draw).host = s.host := rfl
@[simp] theorem State.draw_sys (s : State) : (s.draw).sys = s.sys := rfl
@[simp] theorem State.draw_resets (s : State) : (s.draw).resets = s.resets := rfl
@[simp] theorem State.draw_ftc (s : State) : (s.draw).ftc = s.ftc := rfl

/-! ## State.count -/

@[simp] theorem State.count_pending (s : State) (i n : Nat) : (s.count i n).pending = s.pending := rfl
@[simp] theorem State.count_now (s : State) (i n : Nat) : (s.count i n).now = s.now := rfl
@[simp] theorem State.count_freeCtr (s : State) (i n : Nat) : (s.count i n).freeCtr = s.freeCtr := rfl
@[simp] theorem State.count_out (s : State) (i n : Nat) : (s.count i n).out = s.out := rfl
@[simp] theorem State.count_cores (s : State) (i n : Nat) : (s.count i n).cores = s.cores := rfl
@[simp] theorem State.count_stores (s : State) (i n : Nat) : (s.count i n).stores = s.stores := rfl
@[simp] theorem State.count_regs (s : State) (i n : Nat) : (s.count i n).regs = s.regs := rfl
@[simp] theorem State.count_mem (s : State) (i n : Nat) : (s.count i n).mem = s.mem := rfl
@[simp] theorem State.count_parts (s : State) (i n : Nat) : (s.count i n).parts = s.parts := rfl
@[simp] theorem State.count_fab (s : State) (i n : Nat) : (s.count i n).fab = s.fab := rfl
@[simp] theorem State.count_colls (s : State) (i n : Nat) : (s.count i n).colls = s.colls := rfl
@[simp] theorem State.count_launches (s : State) (i n : Nat) : (s.count i n).launches = s.launches := rfl
@[simp] theorem State.count_groups (s : State) (i n : Nat) : (s.count i n).groups = s.groups := rfl
@[simp] theorem State.count_barNet (s : State) (i n : Nat) : (s.count i n).barNet = s.barNet := rfl
@[simp] theorem State.count_host (s : State) (i n : Nat) : (s.count i n).host = s.host := rfl
@[simp] theorem State.count_sys (s : State) (i n : Nat) : (s.count i n).sys = s.sys := rfl
@[simp] theorem State.count_resets (s : State) (i n : Nat) : (s.count i n).resets = s.resets := rfl
@[simp] theorem State.count_ftc (s : State) (i n : Nat) : (s.count i n).ftc = s.ftc := rfl

/-! ## State.setHalf -/

@[simp] theorem State.setHalf_pending (s : State) (d : Nat) (h : Half) : (s.setHalf d h).pending = s.pending := rfl
@[simp] theorem State.setHalf_now (s : State) (d : Nat) (h : Half) : (s.setHalf d h).now = s.now := rfl
@[simp] theorem State.setHalf_freeCtr (s : State) (d : Nat) (h : Half) : (s.setHalf d h).freeCtr = s.freeCtr := rfl
@[simp] theorem State.setHalf_out (s : State) (d : Nat) (h : Half) : (s.setHalf d h).out = s.out := rfl
@[simp] theorem State.setHalf_cores (s : State) (d : Nat) (h : Half) : (s.setHalf d h).cores = s.cores := rfl
@[simp] theorem State.setHalf_stores (s : State) (d : Nat) (h : Half) : (s.setHalf d h).stores = s.stores := rfl
@[simp] theorem State.setHalf_regs (s : State) (d : Nat) (h : Half) : (s.setHalf d h).regs = s.regs := rfl
@[simp] theorem State.setHalf_cnt (s : State) (d : Nat) (h : Half) : (s.setHalf d h).cnt = s.cnt := rfl
@[simp] theorem State.setHalf_mem (s : State) (d : Nat) (h : Half) : (s.setHalf d h).mem = s.mem := rfl
@[simp] theorem State.setHalf_parts (s : State) (d : Nat) (h : Half) : (s.setHalf d h).parts = s.parts := rfl
@[simp] theorem State.setHalf_colls (s : State) (d : Nat) (h : Half) : (s.setHalf d h).colls = s.colls := rfl
@[simp] theorem State.setHalf_launches (s : State) (d : Nat) (h : Half) : (s.setHalf d h).launches = s.launches := rfl
@[simp] theorem State.setHalf_groups (s : State) (d : Nat) (h : Half) : (s.setHalf d h).groups = s.groups := rfl
@[simp] theorem State.setHalf_barNet (s : State) (d : Nat) (h : Half) : (s.setHalf d h).barNet = s.barNet := rfl
@[simp] theorem State.setHalf_host (s : State) (d : Nat) (h : Half) : (s.setHalf d h).host = s.host := rfl
@[simp] theorem State.setHalf_sys (s : State) (d : Nat) (h : Half) : (s.setHalf d h).sys = s.sys := rfl
@[simp] theorem State.setHalf_resets (s : State) (d : Nat) (h : Half) : (s.setHalf d h).resets = s.resets := rfl
@[simp] theorem State.setHalf_ftc (s : State) (d : Nat) (h : Half) : (s.setHalf d h).ftc = s.ftc := rfl

/-! ## State.modFlight -/

@[simp] theorem State.modFlight_pending (s : State) (c i : Nat) (f : Flight → Flight) : (s.modFlight c i f).pending = s.pending := rfl
@[simp] theorem State.modFlight_now (s : State) (c i : Nat) (f : Flight → Flight) : (s.modFlight c i f).now = s.now := rfl
@[simp] theorem State.modFlight_freeCtr (s : State) (c i : Nat) (f : Flight → Flight) : (s.modFlight c i f).freeCtr = s.freeCtr := rfl
@[simp] theorem State.modFlight_out (s : State) (c i : Nat) (f : Flight → Flight) : (s.modFlight c i f).out = s.out := rfl
@[simp] theorem State.modFlight_stores (s : State) (c i : Nat) (f : Flight → Flight) : (s.modFlight c i f).stores = s.stores := rfl
@[simp] theorem State.modFlight_regs (s : State) (c i : Nat) (f : Flight → Flight) : (s.modFlight c i f).regs = s.regs := rfl
@[simp] theorem State.modFlight_cnt (s : State) (c i : Nat) (f : Flight → Flight) : (s.modFlight c i f).cnt = s.cnt := rfl
@[simp] theorem State.modFlight_mem (s : State) (c i : Nat) (f : Flight → Flight) : (s.modFlight c i f).mem = s.mem := rfl
@[simp] theorem State.modFlight_parts (s : State) (c i : Nat) (f : Flight → Flight) : (s.modFlight c i f).parts = s.parts := rfl
@[simp] theorem State.modFlight_fab (s : State) (c i : Nat) (f : Flight → Flight) : (s.modFlight c i f).fab = s.fab := rfl
@[simp] theorem State.modFlight_colls (s : State) (c i : Nat) (f : Flight → Flight) : (s.modFlight c i f).colls = s.colls := rfl
@[simp] theorem State.modFlight_launches (s : State) (c i : Nat) (f : Flight → Flight) : (s.modFlight c i f).launches = s.launches := rfl
@[simp] theorem State.modFlight_groups (s : State) (c i : Nat) (f : Flight → Flight) : (s.modFlight c i f).groups = s.groups := rfl
@[simp] theorem State.modFlight_barNet (s : State) (c i : Nat) (f : Flight → Flight) : (s.modFlight c i f).barNet = s.barNet := rfl
@[simp] theorem State.modFlight_host (s : State) (c i : Nat) (f : Flight → Flight) : (s.modFlight c i f).host = s.host := rfl
@[simp] theorem State.modFlight_sys (s : State) (c i : Nat) (f : Flight → Flight) : (s.modFlight c i f).sys = s.sys := rfl
@[simp] theorem State.modFlight_resets (s : State) (c i : Nat) (f : Flight → Flight) : (s.modFlight c i f).resets = s.resets := rfl
@[simp] theorem State.modFlight_ftc (s : State) (c i : Nat) (f : Flight → Flight) : (s.modFlight c i f).ftc = s.ftc := rfl

/-! ## State.modLaunch -/

@[simp] theorem State.modLaunch_pending (s : State) (r : Nat) (i : BitVec 32) (f : Launch → Launch) : (s.modLaunch r i f).pending = s.pending := rfl
@[simp] theorem State.modLaunch_now (s : State) (r : Nat) (i : BitVec 32) (f : Launch → Launch) : (s.modLaunch r i f).now = s.now := rfl
@[simp] theorem State.modLaunch_freeCtr (s : State) (r : Nat) (i : BitVec 32) (f : Launch → Launch) : (s.modLaunch r i f).freeCtr = s.freeCtr := rfl
@[simp] theorem State.modLaunch_out (s : State) (r : Nat) (i : BitVec 32) (f : Launch → Launch) : (s.modLaunch r i f).out = s.out := rfl
@[simp] theorem State.modLaunch_cores (s : State) (r : Nat) (i : BitVec 32) (f : Launch → Launch) : (s.modLaunch r i f).cores = s.cores := rfl
@[simp] theorem State.modLaunch_stores (s : State) (r : Nat) (i : BitVec 32) (f : Launch → Launch) : (s.modLaunch r i f).stores = s.stores := rfl
@[simp] theorem State.modLaunch_regs (s : State) (r : Nat) (i : BitVec 32) (f : Launch → Launch) : (s.modLaunch r i f).regs = s.regs := rfl
@[simp] theorem State.modLaunch_cnt (s : State) (r : Nat) (i : BitVec 32) (f : Launch → Launch) : (s.modLaunch r i f).cnt = s.cnt := rfl
@[simp] theorem State.modLaunch_mem (s : State) (r : Nat) (i : BitVec 32) (f : Launch → Launch) : (s.modLaunch r i f).mem = s.mem := rfl
@[simp] theorem State.modLaunch_parts (s : State) (r : Nat) (i : BitVec 32) (f : Launch → Launch) : (s.modLaunch r i f).parts = s.parts := rfl
@[simp] theorem State.modLaunch_fab (s : State) (r : Nat) (i : BitVec 32) (f : Launch → Launch) : (s.modLaunch r i f).fab = s.fab := rfl
@[simp] theorem State.modLaunch_colls (s : State) (r : Nat) (i : BitVec 32) (f : Launch → Launch) : (s.modLaunch r i f).colls = s.colls := rfl
@[simp] theorem State.modLaunch_groups (s : State) (r : Nat) (i : BitVec 32) (f : Launch → Launch) : (s.modLaunch r i f).groups = s.groups := rfl
@[simp] theorem State.modLaunch_barNet (s : State) (r : Nat) (i : BitVec 32) (f : Launch → Launch) : (s.modLaunch r i f).barNet = s.barNet := rfl
@[simp] theorem State.modLaunch_host (s : State) (r : Nat) (i : BitVec 32) (f : Launch → Launch) : (s.modLaunch r i f).host = s.host := rfl
@[simp] theorem State.modLaunch_sys (s : State) (r : Nat) (i : BitVec 32) (f : Launch → Launch) : (s.modLaunch r i f).sys = s.sys := rfl
@[simp] theorem State.modLaunch_resets (s : State) (r : Nat) (i : BitVec 32) (f : Launch → Launch) : (s.modLaunch r i f).resets = s.resets := rfl
@[simp] theorem State.modLaunch_ftc (s : State) (r : Nat) (i : BitVec 32) (f : Launch → Launch) : (s.modLaunch r i f).ftc = s.ftc := rfl

/-! ## State.modCmd -/

@[simp] theorem State.modCmd_pending (s : State) (r : Nat) (i : BitVec 32) (f : Cmd → Cmd) : (s.modCmd r i f).pending = s.pending := rfl
@[simp] theorem State.modCmd_now (s : State) (r : Nat) (i : BitVec 32) (f : Cmd → Cmd) : (s.modCmd r i f).now = s.now := rfl
@[simp] theorem State.modCmd_freeCtr (s : State) (r : Nat) (i : BitVec 32) (f : Cmd → Cmd) : (s.modCmd r i f).freeCtr = s.freeCtr := rfl
@[simp] theorem State.modCmd_out (s : State) (r : Nat) (i : BitVec 32) (f : Cmd → Cmd) : (s.modCmd r i f).out = s.out := rfl
@[simp] theorem State.modCmd_cores (s : State) (r : Nat) (i : BitVec 32) (f : Cmd → Cmd) : (s.modCmd r i f).cores = s.cores := rfl
@[simp] theorem State.modCmd_stores (s : State) (r : Nat) (i : BitVec 32) (f : Cmd → Cmd) : (s.modCmd r i f).stores = s.stores := rfl
@[simp] theorem State.modCmd_regs (s : State) (r : Nat) (i : BitVec 32) (f : Cmd → Cmd) : (s.modCmd r i f).regs = s.regs := rfl
@[simp] theorem State.modCmd_cnt (s : State) (r : Nat) (i : BitVec 32) (f : Cmd → Cmd) : (s.modCmd r i f).cnt = s.cnt := rfl
@[simp] theorem State.modCmd_mem (s : State) (r : Nat) (i : BitVec 32) (f : Cmd → Cmd) : (s.modCmd r i f).mem = s.mem := rfl
@[simp] theorem State.modCmd_parts (s : State) (r : Nat) (i : BitVec 32) (f : Cmd → Cmd) : (s.modCmd r i f).parts = s.parts := rfl
@[simp] theorem State.modCmd_fab (s : State) (r : Nat) (i : BitVec 32) (f : Cmd → Cmd) : (s.modCmd r i f).fab = s.fab := rfl
@[simp] theorem State.modCmd_colls (s : State) (r : Nat) (i : BitVec 32) (f : Cmd → Cmd) : (s.modCmd r i f).colls = s.colls := rfl
@[simp] theorem State.modCmd_launches (s : State) (r : Nat) (i : BitVec 32) (f : Cmd → Cmd) : (s.modCmd r i f).launches = s.launches := rfl
@[simp] theorem State.modCmd_groups (s : State) (r : Nat) (i : BitVec 32) (f : Cmd → Cmd) : (s.modCmd r i f).groups = s.groups := rfl
@[simp] theorem State.modCmd_barNet (s : State) (r : Nat) (i : BitVec 32) (f : Cmd → Cmd) : (s.modCmd r i f).barNet = s.barNet := rfl
@[simp] theorem State.modCmd_sys (s : State) (r : Nat) (i : BitVec 32) (f : Cmd → Cmd) : (s.modCmd r i f).sys = s.sys := rfl
@[simp] theorem State.modCmd_resets (s : State) (r : Nat) (i : BitVec 32) (f : Cmd → Cmd) : (s.modCmd r i f).resets = s.resets := rfl
@[simp] theorem State.modCmd_ftc (s : State) (r : Nat) (i : BitVec 32) (f : Cmd → Cmd) : (s.modCmd r i f).ftc = s.ftc := rfl

/-! ## State.issue -/

@[simp] theorem State.issue_pending (s : State) (c : Option (Fin 16)) (d : Nat) (w : Requester) (p : Packet) : (s.issue c d w p).pending = s.pending := rfl
@[simp] theorem State.issue_now (s : State) (c : Option (Fin 16)) (d : Nat) (w : Requester) (p : Packet) : (s.issue c d w p).now = s.now := rfl
@[simp] theorem State.issue_freeCtr (s : State) (c : Option (Fin 16)) (d : Nat) (w : Requester) (p : Packet) : (s.issue c d w p).freeCtr = s.freeCtr := rfl
@[simp] theorem State.issue_out (s : State) (c : Option (Fin 16)) (d : Nat) (w : Requester) (p : Packet) : (s.issue c d w p).out = s.out := rfl
@[simp] theorem State.issue_cores (s : State) (c : Option (Fin 16)) (d : Nat) (w : Requester) (p : Packet) : (s.issue c d w p).cores = s.cores := rfl
@[simp] theorem State.issue_stores (s : State) (c : Option (Fin 16)) (d : Nat) (w : Requester) (p : Packet) : (s.issue c d w p).stores = s.stores := rfl
@[simp] theorem State.issue_regs (s : State) (c : Option (Fin 16)) (d : Nat) (w : Requester) (p : Packet) : (s.issue c d w p).regs = s.regs := rfl
@[simp] theorem State.issue_cnt (s : State) (c : Option (Fin 16)) (d : Nat) (w : Requester) (p : Packet) : (s.issue c d w p).cnt = s.cnt := rfl
@[simp] theorem State.issue_mem (s : State) (c : Option (Fin 16)) (d : Nat) (w : Requester) (p : Packet) : (s.issue c d w p).mem = s.mem := rfl
@[simp] theorem State.issue_parts (s : State) (c : Option (Fin 16)) (d : Nat) (w : Requester) (p : Packet) : (s.issue c d w p).parts = s.parts := rfl
@[simp] theorem State.issue_colls (s : State) (c : Option (Fin 16)) (d : Nat) (w : Requester) (p : Packet) : (s.issue c d w p).colls = s.colls := rfl
@[simp] theorem State.issue_launches (s : State) (c : Option (Fin 16)) (d : Nat) (w : Requester) (p : Packet) : (s.issue c d w p).launches = s.launches := rfl
@[simp] theorem State.issue_groups (s : State) (c : Option (Fin 16)) (d : Nat) (w : Requester) (p : Packet) : (s.issue c d w p).groups = s.groups := rfl
@[simp] theorem State.issue_barNet (s : State) (c : Option (Fin 16)) (d : Nat) (w : Requester) (p : Packet) : (s.issue c d w p).barNet = s.barNet := rfl
@[simp] theorem State.issue_host (s : State) (c : Option (Fin 16)) (d : Nat) (w : Requester) (p : Packet) : (s.issue c d w p).host = s.host := rfl
@[simp] theorem State.issue_sys (s : State) (c : Option (Fin 16)) (d : Nat) (w : Requester) (p : Packet) : (s.issue c d w p).sys = s.sys := rfl
@[simp] theorem State.issue_resets (s : State) (c : Option (Fin 16)) (d : Nat) (w : Requester) (p : Packet) : (s.issue c d w p).resets = s.resets := rfl
@[simp] theorem State.issue_ftc (s : State) (c : Option (Fin 16)) (d : Nat) (w : Requester) (p : Packet) : (s.issue c d w p).ftc = s.ftc := rfl

/-! ## Reads of what was written -/

theorem coreIdx_inj (c d : CoreAddr) : coreIdx c = coreIdx d ↔ c = d := by
  constructor
  · intro h
    obtain ⟨p, c, k⟩ := c
    obtain ⟨q, d, l⟩ := d
    simp only [coreIdx] at h
    have := p.isLt; have := q.isLt; have := c.isLt; have := d.isLt; have := k.isLt; have := l.isLt
    simp only [CoreAddr.mk.injEq]
    exact ⟨Fin.ext (by omega), Fin.ext (by omega), Fin.ext (by omega)⟩
  · rintro rfl; rfl

theorem State.core_setCore (s : State) (c d : CoreAddr) (k : Core) :
    (s.setCore c k).core d = if c = d then k else s.core d := by
  simp only [State.core, State.setCore, mget_mput, coreIdx_inj]

@[simp] theorem State.core_setCore_self (s : State) (c : CoreAddr) (k : Core) : (s.setCore c k).core c = k := by
  simp [State.core_setCore]

theorem State.core_setCore_ne (s : State) (c d : CoreAddr) (k : Core) (h : c ≠ d) :
    (s.setCore c k).core d = s.core d := by
  simp [State.core_setCore, h]

theorem State.core_modCore (s : State) (c d : CoreAddr) (f : Core → Core) :
    (s.modCore c f).core d = if c = d then f (s.core c) else s.core d := State.core_setCore s c d _

@[simp] theorem State.core_modCore_self (s : State) (c : CoreAddr) (f : Core → Core) :
    (s.modCore c f).core c = f (s.core c) := by
  simp [State.core_modCore]

theorem State.reg_setReg (s : State) (a b : Nat) (v : Word) :
    (s.setReg a v).reg b = if a = b then v else s.reg b := by
  simp only [State.reg, State.setReg, mget_mput]

@[simp] theorem State.reg_setReg_self (s : State) (a : Nat) (v : Word) : (s.setReg a v).reg a = v := by
  simp [State.reg_setReg]

theorem State.reg_modReg (s : State) (a b : Nat) (f : Word → Word) :
    (s.modReg a f).reg b = if a = b then f (s.reg a) else s.reg b := State.reg_setReg s a b _

@[simp] theorem State.reg_modReg_self (s : State) (a : Nat) (f : Word → Word) : (s.modReg a f).reg a = f (s.reg a) := by
  simp [State.reg_modReg]

theorem State.reg_modReg_ne (s : State) (a b : Nat) (f : Word → Word) (h : a ≠ b) : (s.modReg a f).reg b = s.reg b := by
  simp [State.reg_modReg, h]

/-! ## Register files of a core -/

theorem Core.getS_setS (k : Core) (m n : Nat) (v : Word) :
    (k.setS m v).getS n = if n = 0 then 0 else if m = n then v else k.getS n := by
  unfold Core.setS Core.getS
  by_cases hm : m = 0 <;> by_cases hn : n = 0 <;> simp [hm, hn, mget_mput]
  intro h; exact absurd h.symm (by simpa using hn)

theorem Core.getV_setV (k : Core) (m n : Nat) (v : VReg) : (k.setV m v).getV n = if m = n then v else k.getV n := by
  simp [Core.getV, Core.setV, mget_mput]

theorem Core.getT_setT (k : Core) (m n : Nat) (v : TReg) : (k.setT m v).getT n = if m = n then v else k.getT n := by
  simp [Core.getT, Core.setT, mget_mput]

theorem Core.getK_setK (k : Core) (m n : Nat) (v : Acc) : (k.setK m v).getK n = if m = n then v else k.getK n := by
  simp [Core.getK, Core.setK, mget_mput]

theorem Core.getP_setP (k : Core) (m n : Nat) (v : BitVec 128) :
    (k.setP m v).getP n = if n = 0 then BitVec.allOnes 128 else if m = n then v else k.getP n := by
  unfold Core.setP Core.getP
  by_cases hm : m = 0 <;> by_cases hn : n = 0 <;> simp [hm, hn, mget_mput]
  intro h; exact absurd h.symm (by simpa using hn)

theorem Core.getQ_setQ (k : Core) (m n : Nat) (v : BitVec 16) : (k.setQ m v).getQ n = if m = n then v else k.getQ n := by
  simp [Core.getQ, Core.setQ, mget_mput]

end Sys2Proof.Machine
end

