-- ==== Sys2Proof/Laws/Fields.lean ====
section
/-! SUPPORT. Laws of bit fields and of the registers of control space. -/

namespace Sys2Proof.Machine

/-! ## Fields -/

theorem bit_ones (lo w i : Nat) (h : i < 64) : (ones lo w).getLsbD i = decide (lo ≤ i ∧ i < lo + w) := by
  simp only [ones, BitVec.getLsbD_ofNat, h, decide_true, Bool.true_and, Nat.testBit_shiftLeft, Nat.testBit_two_pow_sub_one]
  by_cases h1 : lo ≤ i <;> simp [h1] <;> omega

/-- Bit `i` of a word with a field set. -/
theorem bit_setField (x : Word) (lo w v i : Nat) (h : i < 64) :
    bit (setField x lo w v) i = if lo ≤ i ∧ i < lo + w then v.testBit (i - lo) else bit x i := by
  simp only [bit, setField, BitVec.getLsbD_or, BitVec.getLsbD_and, BitVec.getLsbD_not, h, decide_true, Bool.true_and,
    bit_ones _ _ _ h, BitVec.getLsbD_ofNat, Nat.testBit_shiftLeft, Nat.testBit_mod_two_pow]
  by_cases h1 : lo ≤ i
  · by_cases h2 : i < lo + w
    · simp [h1, h2, show i - lo < w by omega]
    · simp [h1, h2, show ¬ i - lo < w by omega]
  · simp [h1]

theorem bit_setBit (x : Word) (i j : Nat) (b : Bool) (h : j < 64) : bit (setBit x i b) j = if i = j then b else bit x j := by
  unfold setBit
  rw [bit_setField x i 1 _ j h]
  by_cases hij : i = j
  · subst hij; cases b <;> simp
  · rw [if_neg hij, if_neg (by omega)]

theorem bit_ge (x : Word) (i : Nat) (h : 64 ≤ i) : bit x i = false := BitVec.getLsbD_of_ge x i h

/-- Fields are equal where their bits are. -/
theorem fieldN_congr (x y : Word) (lo lo' w : Nat) (h : ∀ i, i < w → bit x (lo + i) = bit y (lo' + i)) :
    fieldN x lo w = fieldN y lo' w := by
  apply Nat.eq_of_testBit_eq
  intro i
  simp only [fieldN, Nat.testBit_mod_two_pow, Nat.testBit_shiftRight]
  by_cases hi : i < w
  · have := h i hi
    simp only [bit, BitVec.getLsbD] at this
    simp [hi, this]
  · simp [hi]

theorem fieldN_lt (x : Word) (lo w : Nat) : fieldN x lo w < 2 ^ w := Nat.mod_lt _ (Nat.two_pow_pos w)

/-- The field just set. -/
theorem fieldN_setField_self (x : Word) (lo w v : Nat) (h : lo + w ≤ 64) : fieldN (setField x lo w v) lo w = v % 2 ^ w := by
  apply Nat.eq_of_testBit_eq
  intro i
  simp only [fieldN, Nat.testBit_mod_two_pow, Nat.testBit_shiftRight]
  by_cases hi : i < w
  · have := bit_setField x lo w v (lo + i) (by omega)
    rw [if_pos (by omega), show lo + i - lo = i by omega] at this
    simp only [bit, BitVec.getLsbD] at this
    simp [hi, this]
  · simp [hi]

/-- A field that lies outside the one set. -/
theorem fieldN_setField_ne (x : Word) (lo w v lo' w' : Nat) (h : lo' + w' ≤ lo ∨ lo + w ≤ lo') :
    fieldN (setField x lo w v) lo' w' = fieldN x lo' w' := by
  apply fieldN_congr
  intro i hi
  by_cases h64 : lo' + i < 64
  · rw [bit_setField x lo w v _ h64, if_neg (by omega)]
  · rw [bit_ge _ _ (by omega), bit_ge _ _ (by omega)]

theorem fieldN_setBit_ne (x : Word) (i : Nat) (b : Bool) (lo w : Nat) (h : lo + w ≤ i ∨ i < lo) :
    fieldN (setBit x i b) lo w = fieldN x lo w := fieldN_setField_ne x i 1 _ lo w (by omega)

theorem bit_setField_ne (x : Word) (lo w v i : Nat) (h : i < lo ∨ lo + w ≤ i) : bit (setField x lo w v) i = bit x i := by
  by_cases h64 : i < 64
  · rw [bit_setField x lo w v i h64, if_neg (by omega)]
  · rw [bit_ge _ _ (by omega), bit_ge _ _ (by omega)]

/-- A count that holds at its largest value. -/
theorem fieldN_bumpHold (x : Word) (lo w : Nat) (h : lo + w ≤ 64) :
    fieldN (bumpHold x lo w) lo w = min (fieldN x lo w + 1) (2 ^ w - 1) := by
  unfold bumpHold
  have := fieldN_lt x lo w
  simp only []
  split
  · rw [fieldN_setField_self x lo w _ h, Nat.mod_eq_of_lt (by omega)]; omega
  · omega

theorem bit_bumpHold_ne (x : Word) (lo w i : Nat) (h : i < lo ∨ lo + w ≤ i) : bit (bumpHold x lo w) i = bit x i := by
  unfold bumpHold
  simp only []
  split
  · exact bit_setField_ne x lo w _ i h
  · rfl

theorem fieldN_bumpHold_ne (x : Word) (lo w lo' w' : Nat) (h : lo' + w' ≤ lo ∨ lo + w ≤ lo') :
    fieldN (bumpHold x lo w) lo' w' = fieldN x lo' w' := by
  unfold bumpHold
  simp only []
  split
  · exact fieldN_setField_ne x lo w _ lo' w' h
  · rfl

theorem fieldN_bumpWrap (x : Word) (lo w : Nat) (h : lo + w ≤ 64) :
    fieldN (bumpWrap x lo w) lo w = (fieldN x lo w + 1) % 2 ^ w := fieldN_setField_self x lo w _ h

theorem fieldN_addHold (x : Word) (lo w k : Nat) (h : lo + w ≤ 64) :
    fieldN (addHold x lo w k) lo w = min (fieldN x lo w + k) (2 ^ w - 1) := by
  unfold addHold
  rw [fieldN_setField_self x lo w _ h, Nat.mod_eq_of_lt]
  have := Nat.two_pow_pos w
  have : Nat.min (fieldN x lo w + k) (2 ^ w - 1) ≤ 2 ^ w - 1 := Nat.min_le_right _ _
  omega

/-- Bit `i` of a merged write (R8). -/
theorem bit_regMerge (old v rw w1c : Word) (i : Nat) :
    bit (regMerge old v rw w1c) i =
      if bit rw i then bit v i else if bit w1c i && bit v i then false else bit old i := by
  by_cases h : i < 64
  · simp only [bit, regMerge, BitVec.getLsbD_or, BitVec.getLsbD_and, BitVec.getLsbD_not, h, decide_true, Bool.true_and]
    by_cases hr : rw.getLsbD i = true <;> by_cases hw : w1c.getLsbD i = true <;> by_cases hv : v.getLsbD i = true <;> simp [hr, hw, hv]
  · rw [bit_ge _ _ (by omega), bit_ge _ _ (by omega), bit_ge _ _ (by omega), bit_ge _ _ (by omega), bit_ge _ _ (by omega)]
    simp

/-- Words are equal where their bits are. -/
theorem word_ext (x y : Word) (h : ∀ i, i < 64 → bit x i = bit y i) : x = y := BitVec.eq_of_getLsbD_eq fun i hi => h i hi

/-! ## Registers -/

theorem State.fld_eq (s : State) (a lo w : Nat) : fieldN (s.reg a) lo w = s.fld a lo w := rfl

/-- A register operation that touches the register `a` alone. -/
theorem OnlyRegs.modReg (s : State) (a : Nat) (f : Word → Word) : OnlyRegs s (s.modReg a f) [a] :=
  ⟨rfl, fun b hb => State.reg_modReg_ne s a b f fun e => hb (by simp [e])⟩

theorem OnlyRegs.setReg (s : State) (a : Nat) (v : Word) : OnlyRegs s (s.setReg a v) [a] :=
  ⟨rfl, fun b hb => by rw [State.reg_setReg, if_neg]; intro e; exact hb (by simp [e])⟩

theorem OnlyRegs.refl (s : State) (l : List Nat) : OnlyRegs s s l := ⟨rfl, fun _ _ => rfl⟩

theorem OnlyRegs.mono {s t : State} {l m : List Nat} (h : OnlyRegs s t l) (hl : ∀ a ∈ l, a ∈ m) : OnlyRegs s t m :=
  ⟨h.1, fun a ha => h.2 a fun e => ha (hl a e)⟩

theorem OnlyRegs.trans {s t u : State} {l : List Nat} (h : OnlyRegs s t l) (g : OnlyRegs t u l) : OnlyRegs s u l := by
  refine ⟨?_, fun a ha => (g.2 a ha).trans (h.2 a ha)⟩
  rw [g.1, h.1]

theorem RegsKept.trans {s t u : State} {l : List Nat} (h : RegsKept s t l) (g : RegsKept t u l) : RegsKept s u l :=
  fun a ha => (g a ha).trans (h a ha)

theorem RegsKept.mono {s t : State} {l m : List Nat} (h : RegsKept s t l) (hl : ∀ a ∈ l, a ∈ m) : RegsKept s t m :=
  fun a ha => h a fun e => ha (hl a e)

theorem State.fld_modReg_ne (s : State) (a b : Nat) (f : Word → Word) (lo w : Nat) (h : a ≠ b) :
    (s.modReg a f).fld b lo w = s.fld b lo w := by
  simp [State.fld, State.reg_modReg, h]

theorem State.rbit_modReg_ne (s : State) (a b : Nat) (f : Word → Word) (i : Nat) (h : a ≠ b) :
    (s.modReg a f).rbit b i = s.rbit b i := by
  simp [State.rbit, State.reg_modReg, h]

theorem State.fld_setFld_self (s : State) (a lo w v : Nat) (h : lo + w ≤ 64) : (s.setFld a lo w v).fld a lo w = v % 2 ^ w := by
  simp [State.fld, State.setFld, fieldN_setField_self _ _ _ _ h]

theorem State.fld_setFld_ne (s : State) (a lo w v lo' w' : Nat) (h : lo' + w' ≤ lo ∨ lo + w ≤ lo') :
    (s.setFld a lo w v).fld a lo' w' = s.fld a lo' w' := by
  simp [State.fld, State.setFld, fieldN_setField_ne _ _ _ _ _ _ h]

theorem State.rbit_setFld_ne (s : State) (a lo w v i : Nat) (h : i < lo ∨ lo + w ≤ i) :
    (s.setFld a lo w v).rbit a i = s.rbit a i := by
  simp [State.rbit, State.setFld, bit_setField_ne _ _ _ _ _ h]

theorem State.rbit_setRBit (s : State) (a i j : Nat) (b : Bool) (h : j < 64) :
    (s.setRBit a i b).rbit a j = if i = j then b else s.rbit a j := by
  simp [State.rbit, State.setRBit, bit_setBit _ _ _ _ h]

theorem State.fld_setRBit_ne (s : State) (a i : Nat) (b : Bool) (lo w : Nat) (h : lo + w ≤ i ∨ i < lo) :
    (s.setRBit a i b).fld a lo w = s.fld a lo w := by
  simp [State.fld, State.setRBit, fieldN_setBit_ne _ _ _ _ _ h]

theorem State.fld_bump (s : State) (a lo w : Nat) (h : lo + w ≤ 64) :
    (s.bump a lo w).fld a lo w = min (s.fld a lo w + 1) (2 ^ w - 1) := by
  simp [State.fld, State.bump, fieldN_bumpHold _ _ _ h]

theorem State.fld_bump_ne (s : State) (a lo w lo' w' : Nat) (h : lo' + w' ≤ lo ∨ lo + w ≤ lo') :
    (s.bump a lo w).fld a lo' w' = s.fld a lo' w' := by
  simp [State.fld, State.bump, fieldN_bumpHold_ne _ _ _ _ _ h]

theorem State.rbit_bump_ne (s : State) (a lo w i : Nat) (h : i < lo ∨ lo + w ≤ i) : (s.bump a lo w).rbit a i = s.rbit a i := by
  simp [State.rbit, State.bump, bit_bumpHold_ne _ _ _ _ h]

end Sys2Proof.Machine
end

