-- ==== Sys2Proof/Laws/Memory.lean ====
section
/-! SUPPORT. Laws of the memories: every operation keeps the canonical form; what is read after a write. -/

namespace Sys2Proof.Machine

/-! ## The canonical form -/

theorem Mem.wf_iff (m : Mem) :
    m.wf = true ↔ Memory.wf m.pkg = true ∧ Memory.wf m.loc = true ∧ mwf restRec m.tcr = true ∧
      mwf (fun _ => zeroRec) m.locTcr = true := by
  simp [Mem.wf, and_assoc]

theorem Mem.wf_ops (m : Mem) (l : List PocOp) (n : Nat) : ({ m with ops := l, nextOp := n } : Mem).wf = m.wf := rfl

theorem Mem.wf_reset : Mem.reset.wf = true := rfl

theorem Mem.wf_store {m : Mem} (h : m.wf = true) (a n v : Nat) : (m.store a n v).wf = true := by
  rw [Mem.wf_iff] at h ⊢
  exact ⟨mwf_mfill _ _ _ _ _ h.1, h.2⟩

theorem Mem.wf_localStore {m : Mem} (h : m.wf = true) (x a n v : Nat) : (m.localStore x a n v).wf = true := by
  rw [Mem.wf_iff] at h ⊢
  exact ⟨h.1, mwf_mfill _ _ _ _ _ h.2.1, h.2.2⟩

theorem Mem.wf_setRec {m : Mem} (h : m.wf = true) (t : Nat) (r : TileRec) : (m.setRec t r).wf = true := by
  rw [Mem.wf_iff] at h ⊢
  exact ⟨h.1, h.2.1, mwf_mput _ _ _ _ h.2.2.1, h.2.2.2⟩

theorem Mem.wf_setLocalRec {m : Mem} (h : m.wf = true) (x n : Nat) (r : TileRec) : (m.setLocalRec x n r).wf = true := by
  rw [Mem.wf_iff] at h ⊢
  exact ⟨h.1, h.2.1, h.2.2.1, mwf_mput _ _ _ _ h.2.2.2⟩

theorem Mem.wf_setPlainRec {m : Mem} (h : m.wf = true) (t : Nat) (r : TileRec) : (m.setPlainRec t r).wf = true :=
  Mem.wf_setRec h _ _

theorem Mem.wf_storeRow {m : Mem} (h : m.wf = true) (t r : Nat) (row : Row) (c : BitVec 14) : (m.storeRow t r row c).wf = true :=
  Mem.wf_setRec (Mem.wf_store h _ _ _) _ _

theorem Mem.wf_localPut {m : Mem} (h : m.wf = true) (x n : Nat) (i : TileImg) : (m.localPut x n i).wf = true :=
  Mem.wf_setLocalRec (Mem.wf_localStore h _ _ _ _) _ _ _

theorem Mem.wf_localWhole {m : Mem} (h : m.wf = true) (x n : Nat) (d : TileData) (f : BitVec 8) (a : BitVec 16) (o : BitVec 24) :
    (m.localWhole x n d f a o).wf = true := Mem.wf_localPut h _ _ _

theorem Mem.wf_localPart {m : Mem} (h : m.wf = true) (x a n v : Nat) : (m.localPart x a n v).wf = true :=
  Mem.wf_setLocalRec (Mem.wf_localStore h _ _ _ _) _ _ _

theorem Mem.wf_pocWhole {m : Mem} (h : m.wf = true) (t : Nat) (i : TileImg) : (m.pocWhole t i).wf = true :=
  Mem.wf_setPlainRec (Mem.wf_store h _ _ _) _ _

theorem Mem.wf_partRow {m : Mem} (h : m.wf = true) (t : Nat) (c : RowChange) : (m.partRow t c).wf = true :=
  Mem.wf_storeRow h _ _ _ _

/-- What every element keeps, a fold keeps. -/
theorem foldl_keeps {σ α : Type} (P : σ → Prop) (f : σ → α → σ) (l : List α) (s : σ) (hs : P s)
    (h : ∀ s, P s → ∀ a ∈ l, P (f s a)) : P (l.foldl f s) := by
  induction l generalizing s with
  | nil => exact hs
  | cons a l ih =>
    exact ih (f s a) (h s hs a (List.mem_cons_self ..)) fun s hs b hb => h s hs b (List.mem_cons_of_mem _ hb)

theorem Mem.wf_pocPart {m : Mem} (h : m.wf = true) (t : Nat) (l : List RowChange) : (m.pocPart t l).wf = true :=
  Mem.wf_setPlainRec (foldl_keeps (fun m : Mem => m.wf = true) _ l m h fun _ h _ _ => Mem.wf_partRow h _ _) _ _

theorem Mem.wf_poison {m : Mem} (h : m.wf = true) (t : Nat) : (m.poison t).wf = true := Mem.wf_setPlainRec h _ _

theorem Mem.wf_closeHeader {m : Mem} (h : m.wf = true) (t : Nat) (i : TileImg) (g : BitVec 32) : (m.closeHeader t i g).wf = true :=
  Mem.wf_setPlainRec h _ _

theorem Mem.wf_poisonClose {m : Mem} (h : m.wf = true) (t : Nat) (i : TileImg) (g : BitVec 32) : (m.poisonClose t i g).wf = true :=
  Mem.wf_setPlainRec h _ _

theorem Mem.wf_storeRecord {m : Mem} (h : m.wf = true) (t o : Nat) (v : Word) : (m.storeRecord t o v).wf = true :=
  Mem.wf_setRec h _ _

theorem Mem.wf_dropOp {m : Mem} (h : m.wf = true) (i : Nat) : (m.dropOp i).wf = true := h

theorem Mem.wf_modOp {m : Mem} (h : m.wf = true) (i : Nat) (f : PocOp → PocOp) : (m.modOp i f).wf = true := h

theorem Mem.wf_landRow {m : Mem} (h : m.wf = true) (t : Nat) (i : TileImg) (g : BitVec 32) (r : Nat) : (m.landRow t i g r).wf = true :=
  Mem.wf_storeRow h _ _ _ _

theorem Mem.wf_landWhole {m : Mem} (h : m.wf = true) (o : PocOp) (k : BitVec 64) : (m.landWhole o k).wf = true := by
  unfold Mem.landWhole
  split
  · exact Mem.wf_modOp (foldl_keeps (fun m : Mem => m.wf = true) _ _ m h fun _ h _ _ => Mem.wf_landRow h _ _ _ _) _ _
  · exact h

theorem Mem.wf_landPart {m : Mem} (h : m.wf = true) (o : PocOp) (k : BitVec 64) : (m.landPart o k).wf = true := by
  unfold Mem.landPart
  split
  · refine Mem.wf_modOp ?_ _ _
    split
    · exact h
    · exact Mem.wf_pocPart h _ _
  · exact h

theorem Mem.wf_localHalf {m : Mem} (h : m.wf = true) (x n f : Nat) (l : List Row) (c : BitVec 8) : (m.localHalf x n f l c).wf = true :=
  Mem.wf_setLocalRec (foldl_keeps (fun m : Mem => m.wf = true) _ _ m h fun _ h _ _ => Mem.wf_localPart h _ _ _ _) _ _ _

/-! ## Reading after a write -/

theorem mslice_eq {α : Type} (d : Nat → α) (m : Map α) (lo n : Nat) :
    mslice d m lo n = (List.range n).map fun i => mget d m (lo + i) := by
  unfold mslice
  apply List.map_congr_left
  intro i hi
  rw [mget_filter d m fun k => decide (lo ≤ k ∧ k < lo + n)]
  simp [List.mem_range.1 hi]

theorem Mem.byte_store (m : Mem) (a n v k : Nat) :
    (m.store a n v).byte k = if a ≤ k ∧ k < a + n then BitVec.ofNat 8 (v >>> (8 * (k - a))) else m.byte k :=
  mget_mfill _ _ _ _ _ _

theorem Mem.localByte_localStore (m : Mem) (x a n v y k : Nat) :
    (m.localStore x a n v).localByte y k =
      if localKey x a ≤ localKey y k ∧ localKey y k < localKey x a + n then
        BitVec.ofNat 8 (v >>> (8 * (localKey y k - localKey x a)))
      else m.localByte y k := mget_mfill _ _ _ _ _ _

@[simp] theorem Mem.byte_localStore (m : Mem) (x a n v k : Nat) : (m.localStore x a n v).byte k = m.byte k := rfl
@[simp] theorem Mem.byte_setRec (m : Mem) (t : Nat) (r : TileRec) (k : Nat) : (m.setRec t r).byte k = m.byte k := rfl
@[simp] theorem Mem.byte_setLocalRec (m : Mem) (x n : Nat) (r : TileRec) (k : Nat) : (m.setLocalRec x n r).byte k = m.byte k := rfl
@[simp] theorem Mem.localByte_store (m : Mem) (a n v x k : Nat) : (m.store a n v).localByte x k = m.localByte x k := rfl
@[simp] theorem Mem.localByte_setRec (m : Mem) (t : Nat) (r : TileRec) (x k : Nat) : (m.setRec t r).localByte x k = m.localByte x k := rfl
@[simp] theorem Mem.localByte_setLocalRec (m : Mem) (y n : Nat) (r : TileRec) (x k : Nat) :
    (m.setLocalRec y n r).localByte x k = m.localByte x k := rfl
@[simp] theorem Mem.recAt_store (m : Mem) (a n v t : Nat) : (m.store a n v).recAt t = m.recAt t := rfl
@[simp] theorem Mem.recAt_localStore (m : Mem) (x a n v t : Nat) : (m.localStore x a n v).recAt t = m.recAt t := rfl
@[simp] theorem Mem.recAt_setLocalRec (m : Mem) (x n : Nat) (r : TileRec) (t : Nat) : (m.setLocalRec x n r).recAt t = m.recAt t := rfl
@[simp] theorem Mem.localRec_store (m : Mem) (a n v x k : Nat) : (m.store a n v).localRec x k = m.localRec x k := rfl
@[simp] theorem Mem.localRec_localStore (m : Mem) (y a n v x k : Nat) : (m.localStore y a n v).localRec x k = m.localRec x k := rfl
@[simp] theorem Mem.localRec_setRec (m : Mem) (t : Nat) (r : TileRec) (x k : Nat) : (m.setRec t r).localRec x k = m.localRec x k := rfl

theorem Mem.recAt_setRec (m : Mem) (t u : Nat) (r : TileRec) : (m.setRec t r).recAt u = if t = u then r else m.recAt u :=
  mget_mput _ _ _ _ _

theorem Mem.localRec_setLocalRec (m : Mem) (x n y k : Nat) (r : TileRec) :
    (m.setLocalRec x n r).localRec y k = if localTile x n = localTile y k then r else m.localRec y k := mget_mput _ _ _ _ _

theorem Mem.num_eq (m : Mem) (a n : Nat) : m.num a n = packNat 8 ((List.range n).map fun i => (m.byte (a + i)).toNat) := by
  simp [Mem.num, Mem.bytes, mslice_eq, Mem.byte, Function.comp_def]

theorem Mem.localNum_eq (m : Mem) (x a n : Nat) :
    m.localNum x a n = packNat 8 ((List.range n).map fun i => (m.localByte x (a + i)).toNat) := by
  simp [Mem.localNum, mslice_eq, Mem.localByte, Function.comp_def, localKey, Nat.add_assoc]

/-- The bytes of a number, packed again. -/
theorem packNat_bytes (n v : Nat) : packNat 8 ((List.range n).map fun i => v >>> (8 * i) % 256) = v % 2 ^ (8 * n) := by
  induction n generalizing v with
  | zero => simp [packNat, Nat.mod_one]
  | succ n ih =>
    rw [List.range_succ_eq_map, List.map_cons, List.map_map, packNat]
    have h : ((fun i => v >>> (8 * i) % 256) ∘ Nat.succ) = fun i => (v / 256) >>> (8 * i) % 256 := by
      funext i
      simp only [Function.comp_apply, Nat.succ_eq_add_one, Nat.shiftRight_eq_div_pow, Nat.div_div_eq_div_mul]
      rw [show 8 * (i + 1) = 8 + 8 * i by omega, Nat.pow_add]
    rw [h, ih, show 8 * (n + 1) = 8 + 8 * n by omega, Nat.pow_add]
    simp only [Nat.mul_zero, Nat.shiftRight_zero, Nat.mod_mod, show (2 : Nat) ^ 8 = 256 from rfl]
    rw [Nat.mod_mul]

theorem Mem.num_store_self (m : Mem) (a n v : Nat) : (m.store a n v).num a n = v % 2 ^ (8 * n) := by
  rw [Mem.num_eq, ← packNat_bytes n v]
  congr 1
  apply List.map_congr_left
  intro i hi
  have : i < n := List.mem_range.1 hi
  rw [Mem.byte_store, if_pos (by omega), show a + i - a = i by omega]
  simp

theorem Mem.num_store_ne (m : Mem) (a n v b k : Nat) (h : b + k ≤ a ∨ a + n ≤ b) : (m.store a n v).num b k = m.num b k := by
  rw [Mem.num_eq, Mem.num_eq]
  congr 1
  apply List.map_congr_left
  intro i hi
  have : i < k := List.mem_range.1 hi
  rw [Mem.byte_store, if_neg (by omega)]

theorem Mem.localNum_localStore_self (m : Mem) (x a n v : Nat) : (m.localStore x a n v).localNum x a n = v % 2 ^ (8 * n) := by
  rw [Mem.localNum_eq, ← packNat_bytes n v]
  congr 1
  apply List.map_congr_left
  intro i hi
  have : i < n := List.mem_range.1 hi
  rw [Mem.localByte_localStore, if_pos (by simp only [localKey]; omega), show localKey x (a + i) - localKey x a = i by simp only [localKey]; omega]
  simp

theorem Mem.localNum_localStore_ne (m : Mem) (x a n v y b k : Nat)
    (h : localKey y b + k ≤ localKey x a ∨ localKey x a + n ≤ localKey y b) :
    (m.localStore x a n v).localNum y b k = m.localNum y b k := by
  rw [Mem.localNum_eq, Mem.localNum_eq]
  congr 1
  apply List.map_congr_left
  intro i hi
  have : i < k := List.mem_range.1 hi
  rw [Mem.localByte_localStore, if_neg (by simp only [localKey] at h ⊢; omega)]

/-- A row just stored, and its code. -/
theorem Mem.row_storeRow_self (m : Mem) (t r : Nat) (row : Row) (c : BitVec 14) : (m.storeRow t r row c).row t r = row := by
  show BitVec.ofNat 512 ((m.store (t * 4096 + 64 * r) 64 row.toNat).num (t * 4096 + 64 * r) 64) = row
  rw [Mem.num_store_self, Nat.mod_eq_of_lt row.isLt]
  simp

end Sys2Proof.Machine
end

