-- ==== Sys2Proof/Laws/Ops.lean ====
section
/-! SUPPORT. What the shared operations of the package can do: events, exceptions and the ends of launches, signals,
arrivals at a point of coherence. -/

namespace Sys2Proof.Machine

/-! ## Events -/

/-- An event changes registers of the log and, where the package is attached, adds a notice and its request. -/
theorem State.event_frame (s : State) (code detail : Nat) :
    s.event code detail = { s with
      regs := (s.event code detail).regs
      fab := { s.fab with src := (s.event code detail).fab.src }
      sys := { s.sys with notices := (s.event code detail).sys.notices } } := by
  unfold State.event
  simp only []
  split <;> rfl

theorem State.event_reg (s : State) (code detail a : Nat) :
    (s.event code detail).reg a =
      if a = rMgtEvtPtr then
        setField (bumpHold (s.reg rMgtEvtPtr) 32 32) 0 6 (s.fld rMgtEvtPtr 0 6 + 1)
      else if a = rMgtEvtT (s.fld rMgtEvtPtr 0 6) then s.ftc
      else if a = rMgtEvt (s.fld rMgtEvtPtr 0 6) then
        setField (setField (setField 0 56 8 code) 40 16 (s.fld rMgtEvtPtr 32 32)) 0 40 detail
      else s.reg a := by
  have hp1 : rMgtEvt (s.fld rMgtEvtPtr 0 6) ≠ rMgtEvtPtr := by simp only [rMgtEvt, rMgtEvtPtr]; omega
  have hp2 : rMgtEvtT (s.fld rMgtEvtPtr 0 6) ≠ rMgtEvtPtr := by simp only [rMgtEvtT, rMgtEvtPtr]; omega
  have h12 : rMgtEvt (s.fld rMgtEvtPtr 0 6) ≠ rMgtEvtT (s.fld rMgtEvtPtr 0 6) := by simp only [rMgtEvtT, rMgtEvt]; omega
  have hr : ∀ t : State, t.regs = ((((s.setReg (rMgtEvt (s.fld rMgtEvtPtr 0 6))
        (setField (setField (setField 0 56 8 code) 40 16 (s.fld rMgtEvtPtr 32 32)) 0 40 detail)).setReg
          (rMgtEvtT (s.fld rMgtEvtPtr 0 6)) s.ftc).modReg rMgtEvtPtr
        fun x => setField (bumpHold x 32 32) 0 6 (s.fld rMgtEvtPtr 0 6 + 1))).regs →
      t.reg a = if a = rMgtEvtPtr then
        setField (bumpHold (s.reg rMgtEvtPtr) 32 32) 0 6 (s.fld rMgtEvtPtr 0 6 + 1)
      else if a = rMgtEvtT (s.fld rMgtEvtPtr 0 6) then s.ftc
      else if a = rMgtEvt (s.fld rMgtEvtPtr 0 6) then
        setField (setField (setField 0 56 8 code) 40 16 (s.fld rMgtEvtPtr 32 32)) 0 40 detail
      else s.reg a := by
    intro t ht
    have : t.reg a = (((s.setReg (rMgtEvt (s.fld rMgtEvtPtr 0 6))
        (setField (setField (setField 0 56 8 code) 40 16 (s.fld rMgtEvtPtr 32 32)) 0 40 detail)).setReg
          (rMgtEvtT (s.fld rMgtEvtPtr 0 6)) s.ftc).modReg rMgtEvtPtr
        fun x => setField (bumpHold x 32 32) 0 6 (s.fld rMgtEvtPtr 0 6 + 1)).reg a := by simp only [State.reg, ht]
    rw [this, State.reg_modReg]
    by_cases e0 : a = rMgtEvtPtr
    · subst e0
      simp only [if_true]
      rw [State.reg_setReg, if_neg hp2, State.reg_setReg, if_neg hp1]
    · rw [if_neg (Ne.symm e0), if_neg e0, State.reg_setReg]
      by_cases e1 : a = rMgtEvtT (s.fld rMgtEvtPtr 0 6)
      · rw [if_pos e1.symm, if_pos e1]
      · rw [if_neg (Ne.symm e1), if_neg e1, State.reg_setReg]
        by_cases e2 : a = rMgtEvt (s.fld rMgtEvtPtr 0 6)
        · rw [if_pos e2.symm, if_pos e2]
        · rw [if_neg (Ne.symm e2), if_neg e2]
  unfold State.event
  simp only []
  split <;> exact hr _ rfl

/-- The event stands in the log as its newest entry. -/
theorem State.event_shows (s : State) (code detail : Nat) (hc : code < 256) (hd : detail < 2 ^ 40) :
    LogShows s (s.event code detail) code detail := by
  have hp1 : rMgtEvt (s.fld rMgtEvtPtr 0 6) ≠ rMgtEvtPtr := by simp only [rMgtEvt, rMgtEvtPtr]; omega
  have hp2 : rMgtEvtT (s.fld rMgtEvtPtr 0 6) ≠ rMgtEvtPtr := by simp only [rMgtEvtT, rMgtEvtPtr]; omega
  have h12 : rMgtEvt (s.fld rMgtEvtPtr 0 6) ≠ rMgtEvtT (s.fld rMgtEvtPtr 0 6) := by simp only [rMgtEvtT, rMgtEvt]; omega
  have e1 : (s.event code detail).reg (rMgtEvt (s.fld rMgtEvtPtr 0 6)) =
      setField (setField (setField 0 56 8 code) 40 16 (s.fld rMgtEvtPtr 32 32)) 0 40 detail := by
    rw [State.event_reg, if_neg hp1, if_neg h12, if_pos rfl]
  have e2 : (s.event code detail).reg (rMgtEvtT (s.fld rMgtEvtPtr 0 6)) = s.ftc := by
    rw [State.event_reg, if_neg hp2, if_pos rfl]
  have e3 : (s.event code detail).fld rMgtEvtPtr 0 6 = (s.fld rMgtEvtPtr 0 6 + 1) % 64 := by
    unfold State.fld
    rw [State.event_reg, if_pos rfl, fieldN_setField_self _ _ _ _ (by omega)]
    rfl
  unfold LogShows
  simp only [e1]
  refine ⟨?_, ?_, ?_, e2, e3⟩
  · rw [fieldN_setField_ne _ _ _ _ _ _ (by omega), fieldN_setField_ne _ _ _ _ _ _ (by omega), fieldN_setField_self _ _ _ _ (by omega)]
    exact Nat.mod_eq_of_lt hc
  · rw [fieldN_setField_ne _ _ _ _ _ _ (by omega), fieldN_setField_self _ _ _ _ (by omega)]
  · rw [fieldN_setField_self _ _ _ _ (by omega)]
    exact Nat.mod_eq_of_lt hd

/-! ## Exceptions, fences and the ends of launches -/

/-- What the fence of a core, and the end of its launch, may change of it. -/
def CoreFenced (k m : Core) : Prop :=
  m = { k with st := m.st, fill := m.fill, failFence := m.failFence, launch := m.launch } ∧
    (m.st = k.st ∨ m.st = .fenced) ∧ (k.st = .fault → m.st = .fault)

/-- What the fence of cores and the end of a launch may change. -/
def LaunchEffect (s t : State) : Prop :=
  t = { s with cores := t.cores, regs := t.regs, launches := t.launches, host := t.host } ∧
    ∀ d, CoreFenced (s.core d) (t.core d)

theorem CoreFenced.refl (k : Core) : CoreFenced k k := ⟨rfl, .inl rfl, id⟩

theorem CoreFenced.trans {a b c : Core} (h : CoreFenced a b) (g : CoreFenced b c) : CoreFenced a c := by
  refine ⟨?_, ?_, fun e => g.2.2 (h.2.2 e)⟩
  · rw [g.1, h.1]
  · rcases g.2.1 with e | e
    · rcases h.2.1 with f | f
      · exact .inl (e.trans f)
      · exact .inr (e.trans f)
    · exact .inr e

theorem LaunchEffect.refl (s : State) : LaunchEffect s s := ⟨rfl, fun _ => .refl _⟩

theorem LaunchEffect.trans {s t u : State} (h : LaunchEffect s t) (g : LaunchEffect t u) : LaunchEffect s u := by
  refine ⟨?_, fun d => (h.2 d).trans (g.2 d)⟩
  rw [g.1, h.1]

/-- An update of one core that fences it at most. -/
theorem LaunchEffect.modCore (s : State) (c : CoreAddr) (f : Core → Core) (h : CoreFenced (s.core c) (f (s.core c))) :
    LaunchEffect s (s.modCore c f) := by
  refine ⟨rfl, fun d => ?_⟩
  rw [State.core_modCore]
  split
  · rename_i e; subst e; exact h
  · exact .refl _

/-- An update of registers, launches or commands alone. -/
theorem LaunchEffect.of_cores {s t : State}
    (h : t = { s with regs := t.regs, launches := t.launches, host := t.host }) : LaunchEffect s t := by
  have hc : t.cores = s.cores := by rw [h]
  refine ⟨?_, fun d => ?_⟩
  · rw [h]
  · simp only [State.core, hc]; exact .refl _

theorem LaunchEffect.withLaunches (s : State) (l : List Launch) : LaunchEffect s { s with launches := l } := .of_cores rfl

theorem LaunchEffect.foldl {α : Type} (f : State → α → State) (l : List α) (s : State) (h : ∀ t a, LaunchEffect t (f t a)) :
    LaunchEffect s (l.foldl f s) :=
  foldl_effect l s
where
  foldl_effect : ∀ (l : List α) (s : State), LaunchEffect s (l.foldl f s)
    | [], s => .refl s
    | a :: l, s => (h s a).trans (foldl_effect l (f s a))

theorem State.fenceCore_effect (s : State) (c : CoreAddr) : LaunchEffect s (s.fenceCore c) := by
  unfold State.fenceCore
  split
  · rename_i e
    exact .modCore _ _ _ ⟨rfl, .inr rfl, fun h => by rw [e] at h; cases h⟩
  · rename_i e
    exact .modCore _ _ _ ⟨rfl, .inr rfl, fun h => by rw [e] at h; cases h⟩
  · rename_i e
    split
    · exact .modCore _ _ _ ⟨rfl, .inr rfl, fun h => by rw [e] at h; cases h⟩
    · exact .refl _
  · exact .refl _

theorem State.endLaunch_effect (s : State) (l : Launch) (st : BitVec 8) : LaunchEffect s (s.endLaunch l st) := by
  unfold State.endLaunch
  exact (LaunchEffect.of_cores rfl).trans
    ((LaunchEffect.foldl _ _ _ fun _ _ => LaunchEffect.of_cores rfl).trans (LaunchEffect.foldl _ _ _ State.fenceCore_effect))

theorem State.endLaunchOf_effect (s : State) (c : CoreAddr) (st : BitVec 8) : LaunchEffect s (s.endLaunchOf c st) := by
  unfold State.endLaunchOf
  split
  · exact s.endLaunch_effect _ _
  · exact .refl _

theorem State.endRoute_effect (s : State) (n : Fin 16) : LaunchEffect s (s.endRoute n) := by
  unfold State.endRoute
  split
  · exact .refl _
  · exact .of_cores rfl

theorem State.settleLaunch_effect (s : State) (l : Launch) : LaunchEffect s (s.settleLaunch l) := by
  unfold State.settleLaunch
  split
  · exact .refl _
  · refine LaunchEffect.trans ?_ (State.endRoute_effect _ _)
    refine LaunchEffect.trans ?_ (LaunchEffect.withLaunches _ _)
    refine LaunchEffect.trans ?_ (LaunchEffect.foldl _ _ _ fun t c => LaunchEffect.modCore _ _ _ ⟨rfl, .inl rfl, id⟩)
    refine LaunchEffect.trans ?_ (LaunchEffect.foldl _ _ _ fun _ _ => LaunchEffect.of_cores rfl)
    exact LaunchEffect.of_cores rfl

theorem State.settle_effect (s : State) : LaunchEffect s s.settle := LaunchEffect.foldl _ _ _ State.settleLaunch_effect

/-- A core that enters FAULT has its record; the end of its launch fences other cores and changes nothing else of them. -/
theorem State.enterFault_effect (s : State) (c : CoreAddr) :
    LaunchEffect (s.modCore c fun k => { k with st := .fault, pend := none, faultAt := s.ftc, fill := false }) (s.enterFault c) :=
  (State.endLaunchOf_effect _ _ _).trans (State.settle_effect _)

theorem State.precise_effect (s : State) (c : CoreAddr) (slot : BitVec 3) (exc : BitVec 8) (addr : Word) :
    LaunchEffect
      ((s.modCore c fun k => k.recordExc ⟨false, slot, stConfig, exc, k.pc, addr⟩).modCore c
        fun k => { k with st := .fault, pend := none, faultAt := s.ftc, fill := false })
      (s.precise c slot exc addr) := State.enterFault_effect _ _

/-- The record of the first exception (Table 4.20). -/
theorem Core.recordExc_first (k : Core) (e : ExcRec) (h : bit k.faultReg 63 = false) :
    let m := k.recordExc e
    m.exc = e.exc ∧ m.faultAddr = e.addr ∧ bit m.faultReg 63 = true ∧ bit m.faultReg 62 = e.deferred ∧
      fieldN m.faultReg 59 3 = e.slot.toNat ∧ fieldN m.faultReg 48 8 = e.status.toNat ∧ fieldN m.faultReg 40 8 = e.exc.toNat ∧
      fieldN m.faultReg 32 8 = 0 ∧ fieldN m.faultReg 0 16 = e.bundle.toNat ∧
      m = { k with exc := m.exc, faultAddr := m.faultAddr, faultReg := m.faultReg } := by
  have hm : k.recordExc e = { k with
      exc := e.exc, faultAddr := e.addr
      faultReg := setField (setField (setField (setField (setField (setField 0 63 1 1) 62 1 (if e.deferred then 1 else 0))
        59 3 e.slot.toNat) 48 8 e.status.toNat) 40 8 e.exc.toNat) 0 16 e.bundle.toNat } := by
    simp [Core.recordExc, h]
  simp only [hm]
  refine ⟨trivial, trivial, ?_, ?_, ?_, ?_, ?_, ?_, ?_, trivial⟩
  · simp [bit_setField]
  · cases e.deferred <;> simp [bit_setField]
  · simp only [fieldN_setField_ne, fieldN_setField_self, Nat.reduceAdd, Nat.reduceLeDiff, or_true]
    exact Nat.mod_eq_of_lt e.slot.isLt
  · simp only [fieldN_setField_ne, fieldN_setField_self, Nat.reduceAdd, Nat.reduceLeDiff, or_true]
    exact Nat.mod_eq_of_lt e.status.isLt
  · simp only [fieldN_setField_ne, fieldN_setField_self, Nat.reduceAdd, Nat.reduceLeDiff, or_true]
    exact Nat.mod_eq_of_lt e.exc.isLt
  · iterate 6 rw [fieldN_setField_ne _ _ _ _ _ _ (by omega)]
    simp [fieldN]
  · rw [fieldN_setField_self _ _ _ _ (by omega)]
    exact Nat.mod_eq_of_lt e.bundle.isLt

/-- An exception that is not the first only counts in MORE (R170). -/
theorem Core.recordExc_more (k : Core) (e : ExcRec) (h : bit k.faultReg 63 = true) :
    k.recordExc e = { k with faultReg := bumpHold k.faultReg 32 8 } := by simp [Core.recordExc, h]

/-! ## Signals -/

/-- A signal of a token counter (R98, R102). -/
theorem State.signalQ_spec (s : State) (c : CoreAddr) (q n : Nat) (slot : BitVec 3) (b : BitVec 16) :
    OnlyCore s (s.signalQ c q n slot b) c ∧ Signalled (s.core c) ((s.signalQ c q n slot b).core c) q n := by
  unfold State.signalQ
  simp only []
  by_cases h : ((s.core c).getQ q).toNat + n < 0x10000
  · rw [if_pos h]
    refine ⟨⟨rfl, fun d hd => ?_⟩, ?_⟩
    · rw [State.core_modCore, if_neg (Ne.symm hd)]
    · rw [State.core_modCore_self]
      refine ⟨fun i hi => by rw [Core.getQ_setQ, if_neg (Ne.symm hi)], ?_⟩
      rw [if_pos h, Core.getQ_setQ, if_pos rfl]
      exact ⟨by rw [BitVec.toNat_ofNat]; exact Nat.mod_eq_of_lt h, rfl⟩
  · rw [if_neg h]
    unfold State.deferred
    refine ⟨⟨rfl, fun d hd => ?_⟩, ?_⟩
    · rw [State.core_modCore, if_neg (Ne.symm hd), State.core_modCore, if_neg (Ne.symm hd)]
    · rw [State.core_modCore_self, State.core_modCore_self]
      have hq : ∀ (k : Core) (e : ExcRec) i, (k.recordExc e).getQ i = k.getQ i := by
        intro k e i; unfold Core.recordExc; split <;> rfl
      refine ⟨fun i hi => ?_, ?_⟩
      · show ((Core.recordExc _ _).getQ i) = _
        rw [hq, Core.getQ_setQ, if_neg (Ne.symm hi)]
      · rw [if_neg h]
        refine ⟨?_, ?_, fun hb => ?_⟩
        · show ((Core.recordExc _ _).getQ q).toNat = _
          rw [hq, Core.getQ_setQ, if_pos rfl]; rfl
        · show Option.isSome (match ((s.core c).setQ q 0xFFFF).pend with | some p => some p | none => some _) = true
          cases ((s.core c).setQ q 0xFFFF).pend <;> rfl
        · have := Core.recordExc_first ((s.core c).setQ q 0xFFFF) ⟨true, slot, stConfig, xcToken, b, 0⟩ hb
          exact this.2.2.2.2.2.2.1

/-! ## Arrivals at a point of coherence -/

/-- An operation arrives behind those that were there. -/
theorem State.pocArrive_spec (s : State) (tile dom : Nat) (kind : PocKind) (who : Requester) :
    let t := s.pocArrive tile dom kind who
    t = { s with mem := { s.mem with ops := t.mem.ops, nextOp := s.mem.nextOp + 1 } } ∧ Arrived s t [(tile, kind)] ∧
      ArrivedFor s t [(tile, kind, who)] ∧ MemKept s t :=
  ⟨rfl, ⟨_, rfl, rfl, by simp⟩, ⟨_, rfl, rfl, by simp⟩, rfl, rfl, rfl, rfl⟩

end Sys2Proof.Machine
end

