-- ==== Sys2Proof/Laws/Slots.lean ====
section
/-! SUPPORT. What the issue of one slot operation can do. -/

namespace Sys2Proof.Machine

theorem shareReg_false_iff (a b : List RegName) : shareReg a b = false ↔ ∀ r ∈ a, r ∉ b := by
  simp [shareReg]

/-- No operation of the bundle itself has to be completed first. -/
theorem State.settleOwn_id (s : State) (c : CoreAddr) (first : Nat) (r w : List RegName) (l : List LocalRange)
    (h : ∀ x ∈ (s.core c).flights, x.clashes r w l = false) : s.settleOwn c first r w l = s := by
  unfold State.settleOwn
  have : ((s.core c).flights.find? fun x => decide (first ≤ x.id) && x.pipe.isSome && x.clashes r w l) = none := by
    rw [List.find?_eq_none]
    intro x hx
    simp [h x hx]
  rw [this]

theorem foldl_add_init (l : List Nat) (a : Nat) : l.foldl (· + ·) a = a + l.foldl (· + ·) 0 := by
  induction l generalizing a with
  | nil => simp
  | cons b l ih => simp only [List.foldl_cons]; rw [ih (a + b), ih (0 + b)]; omega

theorem sum_filter_le (l : List Flight) (p : Flight → Bool) :
    ((l.filter p).map fun x => x.ranges.length).foldl (· + ·) 0 ≤ (l.map fun x => x.ranges.length).foldl (· + ·) 0 := by
  induction l with
  | nil => simp
  | cons x l ih =>
    rw [List.map_cons, List.foldl_cons, foldl_add_init _ (0 + _)]
    by_cases hx : p x
    · rw [List.filter_cons_of_pos hx, List.map_cons, List.foldl_cons, foldl_add_init _ (0 + _)]; omega
    · rw [List.filter_cons_of_neg hx]; omega

theorem vsmwState_of_free (s : State) (c : CoreAddr) (slot : BitVec 3) (op : SlotOp) (h : SlotFree s c op)
    (hv : ∀ f, op = .vsmw f → (s.core c).vsmwOk f = true) : vsmwState (s.core c) [(slot, op)] = none := by
  unfold vsmwState
  cases op <;> try rfl
  case vsmw f =>
    simp only [List.find?]
    have hn : ((s.core c).flights.any fun x => x.writes.contains (.s f.rs.toNat)) = false := by
      rw [List.any_eq_false]
      intro x hx
      have := h.2.2.1 x hx
      simp only [Flight.clashes, opRegs, Bool.or_eq_false_iff] at this
      have h1 := (shareReg_false_iff _ _).1 this.1.1.1
      intro hc
      have := h1 (.s f.rs.toNat) (by simpa using hc)
      simp at this
    simp only [hn, hv f rfl, if_true]
    rfl

/-- A slot operation that is free to issue does at issue what its slot does, and nothing else. -/
theorem State.runSlot_free (s : State) (c : CoreAddr) (slot : BitVec 3) (op : SlotOp) (h : SlotFree s c op)
    (hp : elementwise op = true ∨ (s.core c).enabled (opPred op) = true)
    (hv : ∀ f, op = .vsmw f → (s.core c).vsmwOk f = true) :
    s.runSlot c slot op = match slotOp c (s.core c).pc op s with
      | .ok t => t.issued c
      | .exc code a => s.precise c slot code a
      | .hold => s := by
  have hvs := vsmwState_of_free s c slot op h hv
  obtain ⟨hm, hl, hc, hq, he⟩ := h
  have hany : (((s.core c).flights.filter fun x => decide (x.id < (s.core c).nextId)).any fun x =>
      x.clashes (opRegs op).1 (opRegs op).2 ((s.core c).opRanges op)) = false := by
    rw [List.any_eq_false]
    intro x hx
    simp [hc x (List.mem_filter.1 hx).1]
  have hsum := sum_filter_le (s.core c).flights fun x => decide (x.id < (s.core c).nextId)
  have hnot : (!elementwise op && !(s.core c).enabled (opPred op)) = false := by
    rcases hp with hp | hp <;> simp [hp]
  have hent : ¬ 64 < ((((s.core c).flights.filter fun x => decide (x.id < (s.core c).nextId)).map
      fun x => x.ranges.length).foldl (· + ·) 0 + (0 + ((s.core c).opRanges op).length)) := by
    unfold Core.entries at he
    omega
  have hq' : ¬ 8 ≤ (s.core c).queued op := by omega
  simp only [State.runSlot, hm, hl, Bool.not_true, if_false, Bool.false_eq_true, State.issueAs, hvs, id_eq,
    State.issueSlots, List.foldl_cons, List.foldl_nil, Issuing.slot, hnot, hany, decide_eq_false hq', decide_eq_false hent,
    Bool.or_false, State.settleOwn_id s c _ _ _ _ hc]
  cases slotOp c (s.core c).pc op s <;> rfl

/-- Where the predicate is off, the operation issues and does nothing. -/
theorem State.runSlot_off (s : State) (c : CoreAddr) (slot : BitVec 3) (op : SlotOp) (hm : (s.core c).mayIssue = true)
    (hl : opLegal op = true) (hp : elementwise op = false) (he : (s.core c).enabled (opPred op) = false)
    (hv : vsmwState (s.core c) [(slot, op)] = none) : s.runSlot c slot op = s.issued c := by
  simp [State.runSlot, hm, hl, State.issueAs, hv, State.issueSlots, Issuing.slot, hp, he]

end Sys2Proof.Machine
end

