-- ==== Sys2Proof/Tests/Slice0.lean ====
section
/-! SUPPORT. Tests: an ill-formed term for each check of WellFormed, single steps on small states, and for each statement with
hypotheses states and operands that meet them. -/

namespace Sys2Proof.Tests

-- one theorem at a time: each keeps a thread and its stack
set_option Elab.async false

open Sys2Proof.Machine

/-! ## Small states -/

/-- The core of the tests, and the state that the package is in with that core as `k` says. -/
def wc : CoreAddr := ⟨0, 0, 0⟩
def wAt (k : Core) : State := { State.reset.setReg (rCmap 0 0) 0x0000800076543210 with cores := [(0, k)] }
def wCore : Core := { Core.reset with st := .run, s := [(1, 0x40), (2, 0x1000), (3, 0x2000)] }

/-! ## WellFormed -/

/-- A packet of the type given without a payload. -/
def pk (typ : BitVec 4) : Packet := { blankPacket with typ := typ }

/-- An ill-formed term for each check on a register access, a packet, a length or a list. -/
theorem test_wf_size : (Instr.regWrite .i3c 0 3 0).wf = false ∧ (Instr.regWrite .i3c 0 8 0).wf = true := by decide
theorem test_wf_requests : (Instr.writeTile 0 (pk 1)).wf = false ∧ (Instr.readTile 0 (pk 1)).wf = false ∧
    (Instr.write8 0 (pk 4)).wf = false ∧ (Instr.read8 0 (pk 3)).wf = false ∧ (Instr.notify 0 (pk 6)).wf = false ∧
    (Instr.openStream 0 (pk 7)).wf = false ∧ (Instr.closeStream 0 (pk 6)).wf = false ∧ (Instr.mgmt 0 (pk 9)).wf = false := by decide
theorem test_wf_answers : (Instr.ack 0 (pk 13)).wf = false ∧ (Instr.readResp 0 (pk 11)).wf = false ∧ (Instr.resp8 0 (pk 10)).wf = false ∧
    (Instr.nack 0 (pk 10)).wf = false := by decide
theorem test_wf_collective : (Instr.collHeld 0 (pk 8)).wf = false ∧ (Instr.collGo 0 (pk 8)).wf = false ∧ (Instr.collYield 0 (pk 8)).wf = false ∧
    (Instr.yieldOk 0 (pk 8)).wf = false ∧ (Instr.goSent 0 (pk 8)).wf = false ∧ (Instr.collData 0 (pk 8)).wf = false ∧
    (Instr.collCredit 0 (pk 8)).wf = false ∧ (Instr.collFin 0 (pk 8)).wf = false ∧ (Instr.collEnd 0 (pk 8)).wf = false := by decide
theorem test_wf_lengths : (Instr.bar2Access 0 .pf true 0 4 []).wf = false ∧ (Instr.bar2Access 0 .pf false 0 4097 []).wf = false ∧
    (Instr.roceRequest 0 false 0 0 0 []).wf = false ∧ (Instr.roceRequest 0 true 0 0 1 []).wf = false ∧ (Instr.avsRead [] []).wf = false ∧
    (Instr.hbmTempRead 0 [1]).wf = false := by decide
theorem test_wf_trace : (Instr.tracePacket ⟨0, 0⟩ 0 [] false).wf = false := by decide
theorem test_wf_lists : (Instr.memoryPhaseEnd [(0, 0), (0, 0)] []).wf = false ∧ (Instr.memoryPhaseEnd [] [1, 1]).wf = false ∧
    (Instr.clocksPhaseEnd [2, 2] true).wf = false ∧ (Instr.knownAnswerRun 0 0 [3, 3]).wf = false := by decide

/-! ## Slots -/

/-- A running core with nothing in flight may issue an operation that is legal by its fields and names few rows. -/
theorem slotFree_of (s : State) (c : CoreAddr) (op : SlotOp) (h : (s.core c).mayIssue = true) (hf : (s.core c).flights = [])
    (hl : opLegal op = true) (hr : ((s.core c).opRanges op).length ≤ 64) : SlotFree s c op := by
  refine ⟨h, hl, by simp [hf], ?_, by simp [Core.entries, hf, hr]⟩
  simp only [Core.queued, hf]
  cases opPipe op <;> cases op <;> simp

/-- The core may issue every operation of the list, and their predicates are on. -/
def allFree (s : State) (c : CoreAddr) (l : List SlotOp) : Bool :=
  (s.core c).mayIssue && decide ((s.core c).flights = []) &&
    l.all fun op => opLegal op && decide (((s.core c).opRanges op).length ≤ 64) && (s.core c).enabled (opPred op)

theorem slotFree_list {s : State} {c : CoreAddr} {l : List SlotOp} (h : allFree s c l = true) :
    ∀ op ∈ l, SlotFree s c op ∧ (s.core c).enabled (opPred op) = true := by
  simp only [allFree, Bool.and_eq_true, decide_eq_true_eq, List.all_eq_true] at h
  exact fun op ho => ⟨slotFree_of _ _ _ h.1.1 h.1.2 (h.2 op ho).1.1 (h.2 op ho).1.2, (h.2 op ho).2⟩

def wRun : State := wAt wCore
def wFVR : FVR := ⟨0, 1, 2, 3, 0, 0, 0⟩
def wFLM : FLM := ⟨0, false, 5, 2, 0, 0⟩
def wFLR : FLR := ⟨0, false, 5, 1, 2⟩
def wFLI : FLI := ⟨0, true, 0, 1, 0xFFFF⟩
def wFMP : FMP := ⟨0, 2, 3, 8, 20, 1⟩
def wFMF : FMF := ⟨0, 2, 3, 8, 20, 0, false, 0⟩

theorem witness_VectorOperations : ∀ op ∈ [SlotOp.vfma wFVR, .vadd wFVR, .vsub wFVR, .vmul wFVR, .vmin wFVR, .vmax wFVR, .vcmp wFVR,
    .vcmp { wFVR with ty := 2, vc := 11 }, .viadd wFVR, .visub wFVR, .vand wFVR, .vor wFVR, .vxor wFVR, .vshl wFVR, .vshr wFVR, .vsra wFVR,
    .vsel { wFVR with vc := 7 }, .vbcst ⟨0, 1, 31, 0, 0, 0, 0⟩, .vext ⟨0, 0, 2, 1, 0, 2, 0⟩, .vperm wFVR],
    SlotFree wRun wc op ∧ (wRun.core wc).enabled (opPred op) = true := slotFree_list (by decide +kernel)

theorem witness_ScalarOperations : ∀ op ∈ [SlotOp.add wFLR, .sub wFLR, .and wFLR, .or wFLR, .xor wFLR, .shl wFLR, .shr wFLR, .sra wFLR,
    .mul { wFLR with rd := 0 }, .addi wFLI, .andi wFLI, .shli wFLI, .shri wFLI, .movi ⟨0, false, 5, 7, none⟩, .movi ⟨0, true, 31, 7, some 1⟩,
    .scmp ⟨0, false, 1, 1, 2, 0⟩, .scmp ⟨0, false, 0, 1, 2, 5⟩],
    SlotFree wRun wc op ∧ (wRun.core wc).enabled (opPred op) = true := slotFree_list (by decide +kernel)

def wPoff : State := wAt { wCore with p := [(1, 0)] }
/-- p1 is off: the operation may issue and is not enabled. -/
theorem witness_not_enabled : SlotFree wPoff wc (.scmp ⟨1, false, 1, 1, 2, 0⟩) ∧ (wPoff.core wc).enabled 1 = false :=
  ⟨slotFree_of _ _ _ (by decide +kernel) (by decide +kernel) (by decide +kernel) (by decide +kernel), by decide +kernel⟩

def wBig : State := wAt { wCore with s := [(3, 0x400)] }
theorem witness_WideAndScale : (∀ op ∈ [SlotOp.vkaddw ⟨0, 4, 2, 3, 0, 2, 0⟩, .vknar ⟨0, 1, 2, 0, 0, 2, 0⟩, .vscan ⟨0, 1, 7, true⟩,
      .vsmr ⟨0, 3, true⟩, .vsmw ⟨0, 4, false⟩], SlotFree wRun wc op ∧ (wRun.core wc).enabled (opPred op) = true) ∧
    (wRun.core wc).getS 4 >>> 10 = 0 ∧ (wBig.core wc).getS 3 >>> 10 ≠ 0 ∧ ∀ op ∈ [SlotOp.vsmw ⟨0, 3, false⟩],
      SlotFree wBig wc op ∧ (wBig.core wc).enabled (opPred op) = true :=
  ⟨slotFree_list (by decide +kernel), by decide +kernel, by decide +kernel, slotFree_list (by decide +kernel)⟩

def wKs : FVX := ⟨0, 1, 2, 11, 0, 4, 0, 1⟩
def wAnch : State := wAt { wCore with s := [(4, 0x200)] }
theorem witness_Conversions : (∀ op ∈ [SlotOp.vcvtTo ⟨0, 1, 2, 2, 0, 4, 0, 3⟩, .vcvtTo ⟨0, 1, 2, 5, 0, 4, 0, 1⟩,
      .vcvtFrom ⟨0, 1, 2, 1, 0, 0, 0, 1⟩, .vcvtFrom ⟨0, 1, 2, 9, 0, 4, 0, 3⟩, .vcvtFrom wKs, .vcvtFrom { wKs with fmt := 12 }],
      SlotFree wRun wc op ∧ (wRun.core wc).enabled (opPred op) = true) ∧
    anchorOk ((wRun.core wc).cvtAnchor wKs) = true ∧
    (∀ op ∈ [SlotOp.vcvtFrom wKs], SlotFree wAnch wc op ∧ (wAnch.core wc).enabled (opPred op) = true) ∧
    anchorOk ((wAnch.core wc).cvtAnchor wKs) = false :=
  ⟨slotFree_list (by decide +kernel), by decide +kernel, slotFree_list (by decide +kernel), by decide +kernel⟩

theorem classRows_good {data : TileData} {t : TileRec} : ∀ {l : List Nat},
    (∀ r ∈ l, crc14 (tileRow data r) ^^^ seed t.gen r = codeAt t.code r) → classRows data t l false = .good
  | [], _ => rfl
  | r :: l, h => by
      rw [classRows]
      simp only [h r List.mem_cons_self, if_true]
      exact classRows_good fun q hq => h q (List.mem_cons_of_mem _ hq)

theorem tileRow_zero (r : Nat) : tileRow 0 r = 0 := by simp [tileRow]
theorem crc14_zero : crc14 0 = 0 := by decide +kernel
theorem zero_codes : ∀ r ∈ List.range 64, seed 0 r = codeAt zeroRec.code r := by decide +kernel
def zs0 : List Byte := [0, 64, 45, 160, 22, 124, 8, 212, 66, 226, 224, 67, 204, 19, 168, 69, 151, 33, 113, 28, 31, 124, 72, 76]
def zs1 : List Byte := [98, 158, 108, 42, 80, 75, 1, 163, 203, 188, 53, 36, 78, 182, 227, 248, 12, 65, 248, 80, 107, 36, 38, 93]
def zs2 : List Byte := [76, 204, 83, 32, 101, 83, 173, 87, 160, 86, 213, 165, 128, 253, 98, 116, 89, 138, 230, 173, 77, 110, 72, 92]
def zs3 : List Byte := [63, 39, 219, 157, 121, 28, 95, 244, 103, 8, 238, 132, 240, 97, 169, 168, 53, 62, 144, 196, 100, 94, 233, 98]
def zs4 : List Byte := [142, 155, 152, 103, 19, 42, 144, 222, 166, 108, 106, 200, 106, 189, 46, 178, 0, 0, 0, 0, 0, 0, 0, 0]
def zs5 : List Byte := [0, 0, 128, 0]
theorem zero_bytes : bytesOf 896 zeroRec.code 112 ++ headBytes zeroRec = zs0 ++ zs1 ++ zs2 ++ zs3 ++ zs4 ++ zs5 := by decide +kernel
theorem zs0_sum : zs0.foldl crc32cByte 4294967295#32 = 2388722368#32 := by decide +kernel
theorem zs1_sum : zs1.foldl crc32cByte 2388722368#32 = 26641999#32 := by decide +kernel
theorem zs2_sum : zs2.foldl crc32cByte 26641999#32 = 3714302157#32 := by decide +kernel
theorem zs3_sum : zs3.foldl crc32cByte 3714302157#32 = 2105997684#32 := by decide +kernel
theorem zs4_sum : zs4.foldl crc32cByte 2105997684#32 = 1268519821#32 := by decide +kernel
theorem zs5_sum : zs5.foldl crc32cByte 1268519821#32 ^^^ 0xFFFFFFFF#32 = zeroSum := by decide +kernel
theorem zero_sum : sumOf zeroRec = zeroRec.sum := by
  rw [sumOf, zero_bytes, crc32c]
  simp only [List.foldl_append, zs0_sum, zs1_sum, zs2_sum, zs3_sum, zs4_sum]
  exact zs5_sum

/-- Rows of an initialised tile pass every check. -/
theorem zero_good (rows : List Nat) (whole : Bool) (h : ∀ r ∈ rows, r < 64) : classify 0 zeroRec rows whole = .good := by
  have h1 : recPoison zeroRec = false := by decide +kernel
  have h2 : classRows 0 zeroRec rows false = .good := classRows_good fun r hr => by
    have := zero_codes r (by simpa using h r hr)
    rw [tileRow_zero, crc14_zero, show zeroRec.gen = 0 from rfl, ← this]; simp
  simp only [classify, h1, h2, zero_sum]; simp

theorem packNat_zero (n : Nat) : packNat 8 (List.replicate n 0) = 0 := by
  induction n with
  | zero => rfl
  | succ n ih => simp [List.replicate_succ, packNat, ih]

theorem localNum_empty (m : Mem) (h : m.loc = []) (x a n : Nat) : m.localNum x a n = 0 := by
  have : (mslice memDefault m.loc (localKey x a) n).map BitVec.toNat = List.replicate n 0 := by
    rw [h]; simp [mslice, memDefault, List.map_const']
  rw [Mem.localNum, this, packNat_zero]

/-- Where local memory lists nothing, every access finds good rows. -/
theorem rowsGood_empty (s : State) (c : CoreAddr) (a n : Nat) (h : s.mem.loc = []) (h' : s.mem.locTcr = [])
    (hr : a % 4096 / 64 + max 1 (n / 64) ≤ 64) : RowsGood s c a n := by
  unfold RowsGood
  rw [show s.mem.localTileImg (s.physD c) (a / 4096) = ⟨0, zeroRec⟩ by
    simp [Mem.localTileImg, Mem.localData, localNum_empty _ h, Mem.localRec, h']]
  exact zero_good _ _ fun r hr' => by
    simp only [List.mem_map, List.mem_range] at hr'
    obtain ⟨i, hi, rfl⟩ := hr'
    omega

/-- The record of tile 1 of local memory is poisoned. -/
def wTorn : State := { wRun with mem := { wRun.mem with locTcr := [(localTile 0 1, { zeroRec with flags := 1 })] } }
theorem witness_LocalMemory : (∀ op ∈ [SlotOp.ldS wFLM, .ldR { wFLM with row := 7 }, .ldV wFLM, .ldT wFLM, .stS wFLM, .stR wFLM, .stV wFLM, .stT wFLM],
      SlotFree wRun wc op ∧ (wRun.core wc).enabled (opPred op) = true) ∧
    (∀ n ∈ [8, 64, 512, 4096], AddrOk (wRun.core wc) wFLM n ∧ RowsGood wRun wc ((wRun.core wc).lmAddr wFLM n).toNat n) ∧
    (∀ op ∈ [SlotOp.ldS wFLM, .ldR wFLM, .ldV wFLM, .ldT wFLM], SlotFree wTorn wc op ∧ (wTorn.core wc).enabled (opPred op) = true) ∧
    (∀ n ∈ [8, 64, 512, 4096], AddrOk (wTorn.core wc) wFLM n ∧ ¬ RowsGood wTorn wc ((wTorn.core wc).lmAddr wFLM n).toNat n) := by
  have h1 : ∀ n ∈ [8, 64, 512, 4096], AddrOk (wRun.core wc) wFLM n ∧ ((wRun.core wc).lmAddr wFLM n).toNat % 4096 / 64 + max 1 (n / 64) ≤ 64 := by
    unfold AddrOk; decide +kernel
  have h2 : ∀ n ∈ [8, 64, 512, 4096], AddrOk (wTorn.core wc) wFLM n ∧
      recPoison (wTorn.mem.localRec (wTorn.physD wc) (((wTorn.core wc).lmAddr wFLM n).toNat / 4096)) = true := by
    unfold AddrOk; decide +kernel
  exact ⟨slotFree_list (by decide +kernel), fun n hn => ⟨(h1 n hn).1, rowsGood_empty _ _ _ _ rfl rfl (h1 n hn).2⟩,
    slotFree_list (by decide +kernel), fun n hn => ⟨(h2 n hn).1, by
      have := (h2 n hn).2
      simp only [RowsGood, classify, Mem.localTileImg, this, if_true]; simp⟩⟩

/-! ## Keystone -/

def wAcc : Acc := ⟨true, 5, 0, []⟩
def tr (fmt : BitVec 8) (anchor : BitVec 16) : TReg := ⟨0, fmt, anchor⟩
/-- t0 to t7 hold KS64 tiles of anchor 5, t8 an INT8 tile, t9 an MX tile, t10 scales, t11 an FP32 tile; k0 is in Keystone mode. -/
def wTens : State := wAt { wCore with
  t := ((List.range 8).map fun i => (i, tr fmtKS64 5)) ++ [(8, tr 1 noAnchor), (9, tr 0x10 noAnchor), (10, tr fmtE8M0 noAnchor), (11, tr 5 noAnchor)]
  k := [(0, wAcc)] }
def wTM : FTM := ⟨0, 0, 8, 8, false, false, 7, 7, 0, false⟩
def wTMx : FTM := ⟨0, 0, 9, 9, false, false, 0, 0, 80, false⟩
def wTF : FTF := ⟨0, 1, 11, 11, false, false, true⟩
def wTK : FTK := ⟨0, 0, false, 0⟩
def wTR : FTR := ⟨0, 0, false, 0, 11, 0, 20, 0, 0⟩
theorem witness_TensorIssues :
    (∀ op ∈ [SlotOp.tmma wTM, .tmma wTMx, .tmma { wTM with kd := 1 }, .tfma wTF, .tfma { wTF with kd := 0 }, .kin wTK, .trd wTR,
      .trd { wTR with ks := 1 }, .trd { wTR with ks := 1, fmt := 0 }], SlotFree wTens wc op ∧ (wTens.core wc).enabled (opPred op) = true) ∧
    (∀ f ∈ [wTM, wTMx, { wTM with kd := 1 }], (wTens.core wc).srcCheck f.ma f.ta 1 = none ∧ (wTens.core wc).srcCheck f.mb f.tb 1 = none ∧
      pairOk f.fa f.fb = true ∧ (wTens.tileSrc wc f.ma f.ta).regFmt (kfmtCode f.fa) = true ∧
      (wTens.tileSrc wc f.mb f.tb).regFmt (kfmtCode f.fb) = true ∧
      (mxCode f.fa = true → ((wTens.core wc).getT (f.scl.toNat / 8)).fmt = fmtE8M0)) ∧
    (wTens.tileSrc wc wTF.ma wTF.ta).regFmt (formatCode (if wTF.fp then .fp32 else .bf16) false) = true ∧
    (wTens.core wc).srcCheck wTF.ma wTF.ta 1 = none ∧
    ((wTens.core wc).getK 0).keystone = true ∧ ((wTens.core wc).getK 1).keystone = false ∧
    (wTens.core wc).srcCheck wTK.ml wTK.src 8 = none ∧ (∀ x ∈ wTens.kinTiles wc wTK, x.regFmt fmtKS64 = true) ∧
    (∀ x ∈ wTens.kinTiles wc wTK, x.addr = none → x.img.tcr.anchor = ((wTens.core wc).getK wTK.kd.toNat).anchor) ∧
    (wTens.core wc).srcCheck wTR.ml wTR.dst (trdTiles wTR.fmt) = none ∧ outFmt wTR.fmt = some .ks64 :=
  ⟨slotFree_list (by decide +kernel), by decide +kernel, by decide +kernel, by decide +kernel, by decide +kernel, by decide +kernel,
    by decide +kernel, by decide +kernel, by decide +kernel, by decide +kernel, by decide +kernel⟩

/-- The core with one operation in flight. -/
def wFly (slot : BitVec 3) (q : BitVec 5) (kind : FlightKind) : Flight := ⟨0, slot, 0, q, [], [], [], none, false, kind⟩
def wOne (slot : BitVec 3) (q : BitVec 5) (kind : FlightKind) : State :=
  wAt { wCore with k := [(0, wAcc)], flights := [wFly slot q kind], nextId := 1 }
/-- A tile from a t register; a tile from local memory as initialised. -/
def wReg (fmt : BitVec 8) : TileSrc := ⟨⟨0, { zeroRec with fmt := fmt }⟩, none⟩
def wKey : FlightKind := .keyMul 0 (wReg 1) (wReg 1) 7 7 0 0 127 127 false
def wFloat : FlightKind := .floatMul 1 (wReg 5) (wReg 5) true
def wKin : FlightKind := .kin 0 [wReg fmtKS64]
def wRead (f : FTR) (a : Nat) : FlightKind := .trd f a 0 0 127
theorem witness_TensorEnds :
    ((wOne slotT 0 wKey).core wc).oldestT 0 = some (wFly slotT 0 wKey) ∧ ((wOne slotT 0 wFloat).core wc).oldestT 0 = some (wFly slotT 0 wFloat) ∧
    ((wOne slotT 0 wKin).core wc).oldestT 0 = some (wFly slotT 0 wKin) ∧
    (∀ fmt, SourceOk (wReg fmt) fmt) ∧
    (∀ f ∈ [wTR, { wTR with fmt := 0 }, { wTR with fmt := 6, dst := 2, strip := 8 }, { wTR with ml := true, fmt := 0 }], opLegal (.trd f) = true ∧
      ((wOne slotT 20 (wRead f 0x4000)).core wc).oldestTrd 0 = some (wFly slotT 20 (wRead f 0x4000)) ∧
      (f.ml = true → 0x4000 % 4096 = 0 ∧ 0x4000 + 4096 * trdTiles f.fmt ≤ 0x200000)) :=
  ⟨by decide +kernel, by decide +kernel, by decide +kernel, by simp [SourceOk, wReg], by decide +kernel⟩

/-- A tile that comes from local memory as initialised passes the check of its arrival. -/
theorem witness_SourceOk_memory : SourceOk ⟨⟨0, zeroRec⟩, some 0x1000⟩ fmtUntyped :=
  fun _ => ⟨rfl, by rw [classifyTile]; exact zero_good _ _ (by simp)⟩

theorem witness_KeystoneOrder : ([(fun _ => Delta.mk 1 false false, 1), (fun _ => ⟨2, false, false⟩, 3)] : List ((Nat → Delta) × Nat)).Perm
      [(fun _ => ⟨2, false, false⟩, 3), (fun _ => ⟨1, false, false⟩, 1)] ∧
    (([⟨1, 0⟩, ⟨2, 0⟩] : List (Nat × Nat)).zip [(3 : Nat), 4]).Perm ((([⟨2, 0⟩, ⟨1, 0⟩] : List (Nat × Nat))).zip [4, 3]) :=
  ⟨.swap .., .swap ..⟩

theorem wideOf_small (n : Nat) (hn : n < 2 ^ 63) (hb : ((n : Nat) : BitVec 80).toInt = n) : WideOf 1 (n : BitVec 80) := by
  refine .inr (.inr ?_)
  rw [hb]
  simpa using hn

theorem wide_5 : WideOf 1 5 := wideOf_small 5 (by decide) (by decide)
theorem wide_7 : WideOf 1 7 := wideOf_small 7 (by decide) (by decide)
theorem witness_WideSums : WideOf 1 collInv ∧ WideOf 1 collSat ∧ WideOf 1 5 ∧ (5 : BitVec 80) ≠ collInv ∧ (5 : BitVec 80) ≠ collSat ∧
    [(5 : BitVec 80), 7].Perm [7, 5] ∧ ∀ w ∈ [(5 : BitVec 80), 7], WideOf 1 w := by
  refine ⟨.inl rfl, .inr (.inl rfl), wide_5, by decide, by decide, .swap .., ?_⟩
  intro w hw
  rcases List.mem_cons.1 hw with rfl | hw
  · exact wide_5
  · rw [List.mem_singleton.1 hw]; exact wide_7

/-! ## Movers and control -/

theorem ok_of {α β : Type} {x : Except α β} {b : β} (h : x.toOption = some b) : x = .ok b := by
  cases x with
  | error e => simp [Except.toOption] at h
  | ok v => simpa [Except.toOption] using h

def coreNumbered (k : Core) : Bool := (k.flights.all fun x => decide (x.id < k.nextId)) && decide ((k.flights.map Flight.id).Nodup)
def allNumbered (s : State) : Bool :=
  (s.cores.all fun e => coreNumbered e.2) && (s.mem.ops.all fun o => decide (o.id < s.mem.nextOp)) && decide ((s.mem.ops.map PocOp.id).Nodup)

theorem mget_cases {α : Type} (d : Nat → α) (P : α → Prop) : ∀ (m : Map α) (n : Nat), (∀ e ∈ m, P e.2) → P (d n) → P (mget d m n)
  | [], _, _, hd => hd
  | (k, v) :: m, n, h, hd => by
      rw [mget]
      split
      · exact h _ List.mem_cons_self
      · first | exact hd | exact mget_cases d P m n (fun e he => h e (List.mem_cons_of_mem _ he)) hd

theorem numbered_of {s : State} (h : allNumbered s = true) : s.numbered := by
  simp only [allNumbered, Bool.and_eq_true, List.all_eq_true, decide_eq_true_eq] at h
  refine ⟨fun c => ?_, h.1.2, h.2⟩
  exact mget_cases _ (fun k : Core => (∀ x ∈ k.flights, x.id < k.nextId) ∧ (k.flights.map Flight.id).Nodup) s.cores (coreIdx c)
    (fun e he => by simpa [coreNumbered] using h.1.1 e he) (by simp [Core.reset])

/-- Registers set one after another. -/
def withRegs (s : State) (l : List (Nat × Word)) : State := l.foldl (fun s e => s.setReg e.1 e.2) s

/-- Context 0 has a page table at 0x200000 of partition 0 whose first entry maps 1 GiB at 0x40000000. -/
def wMapped (s : State) : State :=
  { s.setReg (rPtRoot 0 0) 0x8000000000200000 with mem := { s.mem with pkg := [(0x200003, 0x40), (0x200007, 0xF0)] } }
def wMap : State := wMapped wRun

/-- An entry of an endpoint table: valid, of slice 5, for every class, with coordinate x and local endpoint lep. -/
def entry (x lep : Nat) : Word := BitVec.ofNat 64 (2 ^ 63 + x * 2 ^ 48 + lep * 2 ^ 42 + 5 * 2 ^ 30 + 7 * 2 ^ 27)
/-- A system of two packages. Here, at x = 0: endpoint 2 is local endpoint 1, from which context 0 sends, and endpoint 6 local
endpoint 2 with a window of 2 MiB at 0x40000000. Endpoint 4 is at x = 1; port 0 leads there. -/
def wNet (s : State) : State :=
  let s := withRegs s [(rGeom, 0x1000000000000000), (rCtxBox 0, 0x20000000000), (rLepId 1, 0x8000000200000000),
    (rPort 0, 0x2000000000000000), (rEpwBase 2, 0x8000000040000000), (rEpwAttr 2, 0x00C0000000000001)]
  { s with fab := { s.fab with ept := [(2, entry 0 1), (4, entry 1 3), (6, entry 0 2), (0x100002, entry 0 1), (0x100004, entry 1 3),
    (0x100006, entry 0 2)] } }

/-- s1, the local tile 1, the context address 0x2000, and the fabric address of endpoint 4 with a mask of two members. -/
def wMv : Core := { wCore with s := [(2, 0x1000), (3, 0x2000), (4, 0x40000002000), (5, 1), (6, 0)] }
def wMove : State := wNet (wMapped (wAt wMv))
def wPas : List Nat := (List.range 8).map fun i => 0x40002000 + 4096 * i
def wSend : FMF := ⟨0, 2, 4, 8, 20, 20, false, 0⟩
def wMs : FMC := ⟨0, 2, 4, 8, false, 20, 20, 0⟩
theorem witness_MoversIssue : wMove.numbered ∧ wMove.skips wc = false ∧
    (∀ op ∈ [SlotOp.movPut wFMP, .movFetch wFMP, .movX { wFMP with ra := 3 }, .send wSend, .get { wSend with rq := 0 }, .msend wMs],
      SlotFree wMove wc op ∧ (wMove.core wc).enabled (opPred op) = true) ∧
    (wMove.core wc).moverCheck (some 0x1000) [0x2000] 8 = none ∧ (wMove.core wc).moverCheck none [0x2000, 0x2000] 8 = none ∧
    (∀ wr, (wMove.translateTiles (.core wc) 0 0 0x2000 wr 8).2 = .ok wPas) ∧
    ((wMove.translateTiles (.core wc) 0 0 0x2000 false 8).1.translateTiles (.core wc) 0 0 0x2000 true 8).2 = .ok wPas ∧
    PlacesOk wMove wPas ∧
    noteBad wSend.rq ((wMove.core wc).getS 5) = false ∧ (wMove.core wc).moverCheck (some 0x1000) [0x40000002000] 8 = none ∧
    noteBad wMs.rq ((wMove.core wc).getS 6) = false ∧ wMove.mcastBad 0 0 (faEp 0x40000002000) false 1 = false ∧
    mcastMembers wMove.extents (coordOf (eCoord (wMove.ept 0 wMove.bank 4))) false 1 ≠ [] := by
  refine ⟨numbered_of (by decide +kernel), by decide +kernel, slotFree_list (by decide +kernel), by decide +kernel, by decide +kernel,
    fun wr => ok_of (by cases wr <;> decide +kernel), ok_of (by decide +kernel), by unfold PlacesOk; decide +kernel, by decide +kernel, by decide +kernel,
    by decide +kernel, by decide +kernel, by decide +kernel⟩

/-- Counter q3 holds 4; s1 counts down to 0; the scale-maximum registers hold codes. -/
def wCtl : State := wAt { wCore with q := [(3, 4)], s := [(1, 1)], sma := 0x17F, smb := 0x180 }
def wK (hw : Bool) : FCK := ⟨0, 255, true, hw, if hw then 7 else 0, if hw then 7 else 0, if hw then 0 else 0x3FF⟩
theorem witness_ControlOperations :
    (∀ op ∈ [SlotOp.wait ⟨0, 3, 4⟩, .wait ⟨0, 3, 5⟩, .signal ⟨0, 3, 4095⟩, .br ⟨0, 7, 0, false⟩, .bdec ⟨0, 7, 1, false⟩, .bdec ⟨0, 7, 0, false⟩,
      .kclr ⟨0, 255, false, false, 0, 0, 0⟩, .kclr (wK false), .kclr (wK true), .rdftc ⟨0, 5, 0⟩, .rdq ⟨0, 5, 3⟩],
      SlotFree wCtl wc op ∧ (wCtl.core wc).enabled (opPred op) = true) ∧
    ((wCtl.core wc).getQ 3).toNat = 4 ∧ (wCtl.core wc).getS 1 = 1 ∧
    ¬ ((wCtl.core wc).sma.getLsbD 9 = true ∨ (wCtl.core wc).smb.getLsbD 9 = true ∨ (wCtl.core wc).sma.getLsbD 8 = false ∨
      (wCtl.core wc).smb.getLsbD 8 = false) ∧
    (∀ op ∈ [SlotOp.kclr (wK true)], SlotFree wRun wc op ∧ (wRun.core wc).enabled (opPred op) = true) ∧ (wRun.core wc).sma.getLsbD 8 = false ∧
    (State.reset.core wc).mayIssue = false ∧
    ((wPoff.core wc).mayIssue = true ∧ opLegal (.br ⟨1, 7, 0, false⟩) = true ∧ elementwise (.br ⟨1, 7, 0, false⟩) = false ∧
      (wPoff.core wc).enabled (opPred (.br ⟨1, 7, 0, false⟩)) = false ∧ slotCommand (.br wc ⟨1, 7, 0, false⟩) = some (wc, slotC, .br ⟨1, 7, 0, false⟩)) :=
  ⟨slotFree_list (by decide +kernel), by decide +kernel, by decide +kernel, by decide +kernel, slotFree_list (by decide +kernel), by decide +kernel,
    by decide +kernel, by decide +kernel, by decide +kernel, by decide +kernel, by decide +kernel, rfl⟩

def wLd : FCA := ⟨0, 5, 3, 0, false, 0⟩
def wSt : FCA := ⟨0, 5, 3, 2, false, 20⟩
def wOdd : State := wAt { wCore with s := [(3, 0x2004)] }
def wRel (f : Bool) : FlightKind := .strel 0x2000 f 4 7 false false
theorem witness_OrderedAccess :
    (∀ op ∈ [SlotOp.ldvol wLd, .ldacq { wLd with sc := 2 }, .strel wSt, .ldvol { wLd with f := true }, .ldacq { wLd with sc := 4, f := true }],
      SlotFree wMap wc op ∧ (wMap.core wc).enabled (opPred op) = true) ∧
    ((wMap.core wc).getS 3).toNat % 8 = 0 ∧ (wMap.translate 0 0 0x2000 false).pa = .ok 0x40002000 ∧ PlacesOk wMap [0x40002000] ∧
    (∀ op ∈ [SlotOp.ldvol wLd, .ldacq { wLd with sc := 2 }, .strel wSt], SlotFree wOdd wc op ∧ (wOdd.core wc).enabled (opPred op) = true) ∧
    ((wOdd.core wc).getS 3).toNat % 8 ≠ 0 ∧ wMap.skips wc = false ∧
    ((wOne slotC 20 (wRel true)).core wc).flights.head? = some (wFly slotC 20 (wRel true)) ∧ (wOne slotC 20 (wRel true)).performed wc 4 = true ∧
    ((wOne slotT 0 wKey).core wc).flights.head? = some (wFly slotT 0 wKey) ∧ (wRun.core wc).flights = [] :=
  ⟨slotFree_list (by decide +kernel), by decide +kernel, ok_of (by decide +kernel), by unfold PlacesOk; decide +kernel,
    slotFree_list (by decide +kernel), by decide +kernel, by decide +kernel, by decide +kernel, by decide +kernel, by decide +kernel, by decide +kernel⟩
/-- A write of the core to a tile of an HBM stack that is still at its point of coherence. -/
def wPend : State := { wOne slotC 20 (wRel true) with
  mem := { Mem.reset with ops := [⟨0, 0x40002, 0, false, .whole ⟨0, zeroRec⟩ 0 0, .posted⟩], nextOp := 1 } }
theorem witness_OrderedAccess_waits : wPend.performed wc 4 = false := by decide +kernel

def wMvKind : FlightKind := .mover .put 0 1
theorem witness_OperationsEnd :
    ((wOne slotM 20 wMvKind).core wc).flights.find? (fun y => y.id == 0) = some (wFly slotM 20 wMvKind) ∧
    ((wOne slotC 20 (.strel 0x2000 false 2 7 true true)).core wc).flights.find? (fun y => y.id == 0) =
      some (wFly slotC 20 (.strel 0x2000 false 2 7 true true)) ∧
    ((wOne slotC 0 (.load 5 0x2000 true (some 9))).core wc).loadReady = some (wFly slotC 0 (.load 5 0x2000 true (some 9))) ∧
    ((wOne slotC 0 (.load 0 0x2000 false (some 9))).core wc).loadReady = some (wFly slotC 0 (.load 0 0x2000 false (some 9))) := by decide +kernel

def wDef : Core := { wCore with pend := some ⟨true, 7, 2, 10, 3, 0⟩ }
theorem witness_Exceptions : ((wAt wDef).core wc).st = .run ∧ ((wAt wDef).core wc).pend.isSome = true ∧ ((wAt wDef).core wc).flights = [] ∧
    ((wAt { wDef with flights := [wFly slotT 0 wKey], nextId := 1 }).core wc).flights ≠ [] ∧
    (wRun.core wc).mayIssue = true ∧ opLegal (.scmp ⟨0, false, 1, 1, 2, 7⟩) = false ∧ bit (wRun.core wc).faultReg 63 = false ∧
    bit ((wAt { wCore with faultReg := 2 ^ 63 }).core wc).faultReg 63 = true := by decide +kernel

/-- Eight KiB of bundles lie at the beginning of local memory. -/
def wCode (k : Core) : State := wAt { k with code := 0x100 }
theorem witness_BundlesAndIntervals :
    ((wCode wCore).core wc).mayIssue = true ∧ ((wCode wCore).core wc).beatOpen = true ∧
    ((wCode { wCore with pc := 2048 }).core wc).bundles ≤ 2048 ∧ 2047 < ((wCode wCore).core wc).bundles ∧
    (decodeBundle ((wCode wCore).fetch wc 0)).map (fun b => (b.ops, b.span)) = some ([], false) ∧
    (let s := wCode { wCore with pc := 1 }
     decodeBundle ({ s with mem := { s.mem with loc := [(33, 1)] } }.fetch wc 1) = none) ∧
    ((wCode { wCore with atEntry := true }).core wc).atEntry = true ∧
    1000 ≤ (({ wRun with ftc := 10000 }).ftc - (wRun.core wc).limAt).toNat ∧ 10000 ≤ (({ wRun with ftc := 10000 }).ftc - (wRun.core wc).measAt).toNat ∧
    ((wAt { wCore with measOk := true }).core wc).measOk = true ∧ ((wAt { wCore with st := .barrier }).core wc).st = .barrier ∧
    ((wAt { wCore with st := .barrier }).core wc).idlePipes = true ∧ ((wOne slotT 0 wKey).core wc).idlePipes = false := by decide +kernel

/-! ## Spans -/

/-- A group of two spans with the core as its only member, whose launch runs; barrier 1 is awaited. -/
def wGroup : Group := { Group.reset with spans := [⟨100, 1000, 0⟩, ⟨1100, 1000, 0⟩], members := [(0, wc)], full := 1, limitCore := 50, t0 := 10 }
def wArr (l : Bool) (t : Word) : Arrival := ⟨0, wc, 0, l, t, false, false⟩
def inGroup (k : Core) (g : Group) (ftc : Word) : State :=
  { (wAt { k with launch := some (0, 0) }).setReg (rSgCfg 0) 0x8000000000000005 with groups := [(0, g)], barNet := [wArr false 0x900], ftc := ftc }
theorem witness_SpansAndBarriers :
    (∀ op ∈ [SlotOp.spanBar ⟨0, 7, 0, false⟩, .spanBar ⟨0, 0, 0, true⟩], SlotFree (inGroup wCore wGroup 0) wc op ∧
      ((inGroup wCore wGroup 0).core wc).enabled (opPred op) = true) ∧
    (wRun.core wc).flights = [] ∧
    (let s := inGroup { wCore with st := .barrier } wGroup 0x900
     let g := s.group 0
     let a := wArr false 0x900
     s.arrivalComes 0 a = true ∧ g.member a.pkg.toNat a.core = true ∧ g.arrived (arrivalBarrier a) = [] ∧ arrivalBarrier a = g.full ∧
       (∀ m ∈ g.members, ∃ b ∈ [a], b.pkg.toNat = m.1 ∧ b.core = m.2) ∧
       s.fld (rSgSlip 0) 0 48 < maxStamp [a] + s.fld (rSgCfg 0) 0 32 - g.start 1) ∧
    (let s := inGroup { wCore with st := .barrier } { wGroup with members := [(0, wc), (1, wc)] } 0x900
     s.arrivalComes 0 (wArr false 0x900) = true ∧ (s.group 0).member 0 wc = true ∧
       ¬ (∀ m ∈ (s.group 0).members, ∃ b ∈ [wArr false 0x900], b.pkg.toNat = m.1 ∧ b.core = m.2)) ∧
    (∀ k ∈ [{ wCore with st := .barrier, atLaunch := true }, { wCore with st := .barrier, spanIdx := 0, next := 7 },
        { wCore with st := .barrier, spanIdx := 1, stop := true }],
      let s := inGroup k { wGroup with full := 3 } 0x900
      let k := s.core wc
      let g := s.group k.group
      k.st = .barrier ∧ s.rbit (rSgCfg k.group) 63 = true ∧ k.launch = some (g.ring, g.idx) ∧ k.barrierNo < g.full ∧
        g.start k.barrierNo + s.fld (rSgSlip k.group) 0 48 ≤ s.ftc.toNat) :=
  ⟨slotFree_list (by decide +kernel), by decide +kernel, by decide +kernel, by decide +kernel, by decide +kernel⟩

def wRec : SpanRec := ⟨1, 7, 5, [(1, 9)], [], [(3, 0xFFFF)], true⟩
def wEnt : CoreEnt := ⟨0, wc, 0, 0x1000, 1, 0, 0⟩
def wLaunch : Launch := ⟨0, 0, 0, 0, 10, 0, 50, [wEnt], [], 0, 0, 0, (0, 0, 0), false, false, none⟩
def wSpare : State := { inGroup { wCore with st := .stopped, failFence := true } { wGroup with full := 2 } 0x900 with
  launches := [wLaunch], stores := [(0, { CoreStore.reset with rec0 := wRec, tally := [(3, 4)] })] }
def wAgain : State := { wAt { wMv with replaying := true, outCount := 1023 } with
  stores := [(0, { CoreStore.reset with ledger := 1#1024 <<< 1023 })] }
theorem witness_FailureAndReplay :
    wRun.phys wc = some 0 ∧ (inGroup wCore wGroup 0x2000).overLimit wc = true ∧ (inGroup wCore wGroup 0x2000).rbit (rSgCfg 0) 63 = true ∧
    (let s := inGroup wCore { wGroup with limitCore := 0x3000 } 0x100000000
     (s.group 0).full ≤ (s.group 0).spans.length ∧
       (s.group 0).start (s.group 0).full + s.fld (rSgSlip 0) 0 48 + 2 * (s.group 0).limit (s.group 0).full + 10000000 ≤ s.ftc.toNat) ∧
    fieldN (wRun.reg (rCmap 0 0)) 44 4 = 8 ∧ fieldN ((wRun.setReg (rCmap 0 0) 0x0000F00076543210).reg (rCmap 0 0)) 44 4 = 15 ∧
    ((wSpare.core wc).st = .stopped ∧ (wSpare.core wc).failFence = true ∧ wSpare.launchOf wc = some wLaunch ∧
      (wSpare.store wc).newest = some wRec ∧ wLaunch.entryOf wc = some (0, wEnt) ∧ (wSpare.loadCode wLaunch wc 0 wEnt).2 = none ∧
      (wSpare.loadCode wLaunch wc 0 wEnt).1.released 0 1 = true ∧ 1 ≠ (wSpare.group 0).spans.length) ∧
    ((wAgain.core wc).replaying = true ∧ (wAgain.core wc).outCount < 1024 ∧ (wAgain.store wc).ledger.getLsbD (wAgain.core wc).outCount = true) ∧
    (∀ op ∈ [SlotOp.movPut wFMP, .strel wSt], SlotFree wAgain wc op ∧ (wAgain.core wc).enabled (opPred op) = true) ∧
    (wAgain.core wc).moverCheck (some 0x1000) [0x2000] 8 = none ∧ ((wAgain.core wc).getS 3).toNat % 8 = 0 :=
  ⟨by decide +kernel, by decide +kernel, by decide +kernel, by decide +kernel, by decide +kernel, by decide +kernel, by decide +kernel,
    by decide +kernel, slotFree_list (by decide +kernel), by decide +kernel, by decide +kernel⟩
theorem witness_groupsOk (s : State) (h : (s.cores.all fun e => decide (e.2.group < 64)) = true) : s.groupsOk := fun c =>
  mget_cases _ (fun k : Core => k.group < 64) s.cores (coreIdx c) (fun e he => by simpa using List.all_eq_true.1 h e he) (by decide)

/-! ## Memory -/

/-- Rows 0 to 31 were written under generation 0, the others under 1. -/
def wMix : TileRec := { zeroRec with gen := 1, code := codesOf fun r => seed (if r < 32 then 0 else 1) r }
/-- The code of row 5 fits neither generation. -/
def wBad : TileRec := { zeroRec with code := setCode zeroRec.code 5 (codeAt zeroRec.code 5 ^^^ 0x2000) }
theorem rowCode_zero (g : BitVec 32) (r : Nat) : rowCode g r (tileRow 0 r) = seed g r := by
  rw [rowCode, tileRow_zero, crc14_zero]; simp
theorem wMix_codes : ∀ r ∈ List.range 64, codeAt wMix.code r = seed (if r < 32 then 0 else 1) r := by decide +kernel
theorem witness_TornTiles :
    (recPoison wMix = false ∧ (∀ r, r < 64 → codeAt wMix.code r =
      rowCode (if decide (r < 32) then wMix.gen - 1 else wMix.gen) r (tileRow 0 r)) ∧ ∃ r, r < 64 ∧ decide (r < 32) = true) ∧
    recPoison { zeroRec with flags := 1 } = true ∧
    (recPoison wBad = false ∧ (∀ q ∈ List.range 5, codeAt wBad.code q = rowCode wBad.gen q (tileRow 0 q)) ∧
      codeAt wBad.code 5 ≠ rowCode wBad.gen 5 (tileRow 0 5) ∧ codeAt wBad.code 5 ≠ rowCode (wBad.gen - 1) 5 (tileRow 0 5)) := by
  refine ⟨⟨by decide +kernel, fun r hr => ?_, 0, by decide⟩, by decide +kernel, by decide +kernel, fun q hq => ?_, ?_, ?_⟩
  · rw [rowCode_zero, wMix_codes r (by simpa using hr)]
    by_cases h : r < 32 <;> simp [h, wMix]
  · rw [rowCode_zero]
    exact (show ∀ q ∈ List.range 5, codeAt wBad.code q = seed wBad.gen q by decide +kernel) q hq
  · rw [rowCode_zero]; decide +kernel
  · rw [rowCode_zero]; decide +kernel

/-- Operations at the point of coherence of tile 0x40002 of an HBM stack, in order of arrival. -/
def wOp (id : Nat) (opened : Bool) (kind : PocKind) : PocOp := ⟨id, 0x40002, 0, opened, kind, .posted⟩
def wPoc (l : List PocOp) : State := { wRun with mem := { wRun.mem with ops := l, nextOp := 2 } }
def wWhole (l : BitVec 64) : PocKind := .whole ⟨0, zeroRec⟩ 1 l
def wPart : PocKind := .part [⟨0, 0xFF, 0x12⟩, ⟨63, 0xFF00, 0x3400⟩] 0x8000000000000000
theorem witness_TileWrites :
    (wPoc [wOp 0 false (wWhole 0)]).numbered ∧ ((wPoc [wOp 0 false (wWhole 0)]).mem.opsOn 0x40002).head? = some (wOp 0 false (wWhole 0)) ∧
    ((wPoc [wOp 0 true wPart]).mem.opsOn 0x40002).head? = some (wOp 0 true wPart) ∧
    ((wPoc [wOp 0 true (wWhole 3)]).numbered ∧ ((wPoc [wOp 0 true (wWhole 3)]).mem.opsOn 0x40002).find? (fun x => x.isWhole && x.opened) =
      some (wOp 0 true (wWhole 3)) ∧ (wPoc []).failedStack (placeOf (0x40002 * 4096)) = false ∧ (3#64).getLsbD 1 = true ∧ (3#64).getLsbD 2 = false ∧
      ((wPoc []).setReg (rHbmStat 0 0) 4).failedStack (placeOf (0x40002 * 4096)) = true) ∧
    ((wPoc [wOp 0 false wPart]).numbered ∧ (wPoc [wOp 0 false wPart]).mem.partReady 0x40002 = some (wOp 0 false wPart)) :=
  ⟨numbered_of (by decide +kernel), by decide +kernel, by decide +kernel, ⟨numbered_of (by decide +kernel), by decide +kernel⟩,
    ⟨numbered_of (by decide +kernel), by decide +kernel⟩⟩

def wGot : PocKind := .read (some (0, 0))
theorem witness_TileReadings :
    ((wPoc [wOp 0 false (.read none)]).numbered ∧ (wPoc [wOp 0 false (.read none)]).mem.readReady 0x40002 = some (wOp 0 false (.read none)) ∧
      ∀ x ∈ (wPoc [wOp 0 false (.read none)]).mem.opsOn 0x40002, x.isWhole = false ∧ x.isPart = false) ∧
    ((wPoc [wOp 0 true wGot]).numbered ∧ (wPoc [wOp 0 true wGot]).mem.headerReady 0x40002 = some (wOp 0 true wGot) ∧
      ∀ x ∈ (wPoc [wOp 0 true wGot]).mem.opsOn 0x40002, x.isWhole = false ∧ x.isPart = false) ∧
    ((wPoc [wOp 0 true (wWhole 3), wOp 1 false (.read none)]).numbered ∧
      (wPoc [wOp 0 true (wWhole 3), wOp 1 false (.read none)]).mem.opsOn 0x40002 = [wOp 0 true (wWhole 3), wOp 1 false (.read none)]) :=
  ⟨⟨numbered_of (by decide +kernel), by decide +kernel⟩, ⟨numbered_of (by decide +kernel), by decide +kernel⟩,
    ⟨numbered_of (by decide +kernel), by decide +kernel⟩⟩

theorem witness_Scrubbing : wRun.rbit (rScrubCtl 0) 63 = true ∧ (wRun.setReg (rScrubCtl 0) 0).rbit (rScrubCtl 0) 63 = false ∧
    wRun.fencedPlace (.reservoir 0) = false ∧ wRun.fld (rScrubStat 0) 0 32 < scrubTiles ∧
    (let n := scrubTile 0 0; wRun.mem.opsOn n = [] ∧ wRun.fencedPlace (placeOf (n * 4096)) = false ∧ wRun.failedStack (placeOf (n * 4096)) = false) := by
  decide +kernel

def wInv : State := { (wRun.setReg (rPtInv 0) 0x8100000000000000) with parts := [(0, { Part.reset with tlb := [⟨0, 0, true, 0⟩] })] }
theorem witness_Translation : ({ wRun with sys := wRun.sys }.setFld rMgtBoot 60 4 6).accepts .mgmtCore (rPtInv 0) = true ∧
    wRun.rbit (rPtInv 0) 63 = false ∧ wInv.rbit (rPtInv 0) 63 = true ∧ wInv.rbit (rPtInv 0) 56 = true ∧
    (0x2000 : Word).toNat < 2 ^ 48 ∧ tlbFind (wMap.part 0).tlb 0 0x2000 = none ∧
    (walk wMap.mem wMap.failedStack (wMap.reg (rPtRoot 0 0)) 0x2000).toOption = some (true, 0xF000000040000000) ∧
    (walk wRun.mem wRun.failedStack (wRun.reg (rPtRoot 0 0)) 0x2000).toOption = none ∧
    ((wMap.translate 0 0 0x2000 true).pa.toOption = some 0x40002000) ∧ (wRun.translate 0 0 0x2000 true).pa.toOption = none := by
  decide +kernel

/-! ## Links -/

theorem crc_zeros : ∀ n, (List.replicate n (0 : Byte)).foldl crc32cByte 0 = 0
  | 0 => rfl
  | n + 1 => by rw [List.replicate_succ, List.foldl_cons, show crc32cByte 0 0 = 0 by decide]; exact crc_zeros n
theorem crc_ones : ([255, 255, 255, 255] : List Byte).foldl crc32cByte 0xFFFFFFFF = 0 := by decide +kernel

/-- A block in sequence, with a good LCRC; one with NAK too. -/
def wBlock : BitVec 2176 := BitVec.ofNat 2176 (0xFFFFFFFF * 2 ^ 2144 + 0xFFFFFFFF)
def wNak : BitVec 2176 := BitVec.ofNat 2176 (0xB6C382D8 * 2 ^ 2144 + 2 ^ 2080 + 0xFFFFFFFF)
theorem wBlock_ok : lcrcOk wBlock = true := by
  rw [lcrcOk, show bytesOf 2176 wBlock 268 = [255, 255, 255, 255] ++ List.replicate 264 0 by decide +kernel, crc32c, List.foldl_append]
  rw [show ([255, 255, 255, 255] : List Byte).foldl crc32cByte 0xFFFFFFFF#32 = 0 from crc_ones, crc_zeros]
  decide +kernel
theorem wNak_ok : lcrcOk wNak = true := by
  rw [lcrcOk, show bytesOf 2176 wNak 268 = [255, 255, 255, 255] ++ (List.replicate 256 0 ++ [1, 0, 0, 0, 0, 0, 0, 0]) by decide +kernel, crc32c,
    List.foldl_append, List.foldl_append]
  rw [show ([255, 255, 255, 255] : List Byte).foldl crc32cByte 0xFFFFFFFF#32 = 0 from crc_ones, crc_zeros]
  decide +kernel

def wPort (x : Port) (now : Nat) : State := { wNet wRun with fab := { (wNet wRun).fab with ports := [(0, x)] }, now := now }
def wKept (sends : Nat) : Port := { Port.reset with replay := [⟨1, some (sealed { blankPacket with dstCoord := 1 }), sends⟩], ackAt := 5 }
theorem witness_LinkBlocks : (wNet wRun).portUp 0 = true ∧ lcrcOk wBlock = true ∧ bfld wBlock 2048 16 = ((wNet wRun).port 0).rxSeq ∧
    wBlock.getLsbD 2080 = false ∧ lcrcOk wNak = true ∧ bfld wNak 2048 16 = ((wPort (wKept 7) 0).port 0).rxSeq ∧ wNak.getLsbD 2080 = true ∧
    (((wPort (wKept 7) 0).port 0).replay.filter fun e => decide (0x8000 ≤ (bfld wNak 2064 16 - e.seq).toNat)) = (wKept 7).replay ∧
    (∀ e ∈ (wKept 7).replay, e.sends < 8) ∧ (∃ e ∈ (wKept 8).replay, 8 ≤ e.sends) ∧
    (∀ x ∈ [{ Port.reset with rxSeq := 1 }, { Port.reset with rxSeq := 1, rxBad := true }], bfld wBlock 2048 16 ≠ ((wPort x 0).port 0).rxSeq) := by
  exact ⟨by decide +kernel, wBlock_ok, by decide +kernel, by decide +kernel, wNak_ok, by decide +kernel, by decide +kernel, by decide +kernel,
    by decide +kernel, by decide +kernel, by decide +kernel⟩

def wSync (t0 t1 : Nat) : Port := { wKept 1 with resync := some (t0, t1) }
theorem witness_LinkRecovery :
    (wPort (wKept 1) 10005).portUp 0 = true ∧ ((wPort (wKept 1) 10005).port 0).replay ≠ [] ∧ ((wPort (wKept 1) 10005).port 0).ackAt + 10000 ≤ 10005 ∧
    ((wPort (wKept 1) 10004).now < ((wPort (wKept 1) 10004).port 0).ackAt + 10000) ∧ ((wNet wRun).port 0).replay = [] ∧
    (wPort (wKept 1) 0).lsmState 0 = 0 ∧ ((wNet wRun).setFld (rLsm 0) 60 4 1).lsmState 0 = 1 ∧
    (let s := (wPort (wSync 5 5) 10005).setFld (rPort 0) 60 4 3
     let s := s.setFld (rPort 1) 60 4 2
     portRole 0 < 6 ∧ s.portUp 0 = false ∧ (s.port 0).resync = some (5, 5) ∧
       (∀ p ∈ (wKept 1).replay.filterMap TxBlock.last, (s.leave 0 (some 0) 0 p).isSome = true) ∧ 5 + 10000 ≤ s.now ∧ s.now < 5 + 50000) ∧
    5 + 50000 ≤ (wPort (wSync 5 5) 50005).now ∧ (wPort (wSync 5 5) 10004).now < 5 + 10000 := by decide +kernel

/-! ## Ports, routes and packets -/

/-- READY, with an installation record and a licence, attached; module 0 and the module of port 0's high half are lit. -/
def wOn (s : State) : State :=
  let s := (s.setFld rMgtBoot 60 4 6).setReg rMgtLic 0xC000000000000007
  { s with
    sys := { s.sys with record := List.replicate 0x44 0 ++ [8, 0, 0, 0] ++ List.replicate 56 0 }
    fab := { s.fab with lsm := [(0, { Lsm.reset with present := true, identOk := true, lit := true }), (3, { Lsm.reset with present := true, lit := true })] } }
def wLink (st : Nat) (s : State) : State := s.setFld (rPort 0) 60 4 st
def wDown : State := wLink 0 (wOn (wNet wRun))
theorem witness_PortsAndModules :
    (wDown.portUp 0 = false ∧ wDown.portState 0 ≠ 4 ∧ wDown.opticsOn = true ∧ (wDown.port 0).resync = none ∧
      bit ((wDown.setRBit (rPort 0) 49 true).reg (rPort 0)) 49 = true ∧ wDown.keptDark 0 = none ∧ wDown.cabledTo 0 = (coordOf 1, 3) ∧
      (wDown.lsm (lsmOf 0 false)).lit = true ∧ (coordOf 1, 4) ≠ wDown.cabledTo 0) ∧
    (wDown.keptDark 6 = some 6) ∧ ((wLink 1 (wOn (wNet wRun))).portState 0 = 1) ∧
    (wDown.accepts .mgmtCore (rPort 0) = true) ∧ ((wLink 2 wDown).portUp 0 = true) ∧
    ((wLink 4 wDown).portState 0 = 4 ∧ ((wLink 4 wDown).port 0).replay = []) ∧
    (wDown.accepts .mgmtCore (rLsmCtl 0) = true ∧ wDown.rbit (rLsmCtl 0) 63 = false ∧ (wDown.lsm 0).present = true ∧ (wDown.lsm 0).lit = true) ∧
    3600 ≤ ((wDown.setReg rObsPtc 3600).ptc - (wDown.lsm 0).hourAt).toNat ∧ ((wDown.setReg rObsPtc 3599).ptc - (wDown.lsm 0).hourAt).toNat < 3600 := by
  decide +kernel

/-- A packet from endpoint 2 with its HCRC. -/
def wPkt (typ : BitVec 4) (x : BitVec 15) (dst : BitVec 19) : Packet :=
  sealed { blankPacket with typ := typ, dstCoord := x, midCoord := x, ph := true, srcEp := 2, dstEp := dst }
theorem headerOk_sealed (p : Packet) : headerOk (sealed p) = true := by
  simp only [headerOk, decide_eq_true_eq]; rfl
def wBadPkt (typ : BitVec 4) (x : BitVec 15) (dst : BitVec 19) : Packet :=
  { wPkt typ x dst with hcrc := (wPkt typ x dst).hcrc ^^^ 1 }
theorem hcrcOf_hcrc (p : Packet) (h : BitVec 32) : hcrcOf { p with hcrc := h } = hcrcOf p := rfl
theorem headerBad_of (p : Packet) : headerOk { sealed p with hcrc := (sealed p).hcrc ^^^ 1 } = false := by
  simp only [headerOk, hcrcOf_hcrc, sealed]
  refine decide_eq_false fun h => ?_
  have := congrArg (fun v : BitVec 32 => v.getLsbD 0) h
  simp at this
theorem headerBad (typ : BitVec 4) (x : BitVec 15) (dst : BitVec 19) : headerOk (wBadPkt typ x dst) = false := headerBad_of _

theorem witness_RoutesShorten : (Coord.mk 0 3 1).within ⟨4, 4, 2⟩ ∧ (Coord.mk 2 0 0).within ⟨4, 4, 2⟩ ∧
    (nextDir ⟨4, 4, 2⟩ ⟨0, 3, 1⟩ ⟨2, 0, 0⟩).isSome = true ∧ (wNet wRun).coord.within (wNet wRun).extents ∧
    (coordOf 1).within (wNet wRun).extents ∧ (wNet wRun).coord ≠ coordOf 1 ∧ (wNet wRun).coord = coordOf 0 ∧
    (match (wNet wRun).hop 0 none (wPkt 3 1 4) with | .out 0 _ => true | _ => false) = true := by
  unfold Coord.within; decide +kernel

theorem witness_ForwardingAndMode : headerOk (wBadPkt 3 1 4) = false ∧ headerOk (wPkt 3 1 4) = true ∧ (wPkt 3 1 4).mc = false ∧
    nextDir (wNet wRun).extents (wNet wRun).coord (coordOf 1) = some 0 ∧
    ((wNet wRun).leave 0 (portAxis 0) 0 (wPkt 3 1 4)).any (fun w => w.1 == 0 && (wNet wRun).portTakes w.1 w.2) = true ∧
    ((wPort { Port.reset with credits := (List.range 12).map fun q => (q, 0) } 0).leave 0 (portAxis 0) 0 (wPkt 3 1 4)).any
      (fun w => !(wPort { Port.reset with credits := (List.range 12).map fun q => (q, 0) } 0).portTakes w.1 w.2) = true ∧
    (wNet wRun).groupUp 0 ≠ [] ∧ (wLink 0 (wNet wRun)).groupUp 0 = [] ∧ (wPkt 3 1 4).dhint = 0 ∧ isRequest (wPkt 3 1 4).typ = true ∧
    oneStep (wNet wRun).extents (wNet wRun).coord (coordOf (eCoord (entry 1 3))) = true ∧
    oneStep ⟨8, 1, 1⟩ ⟨0, 0, 0⟩ (coordOf (eCoord (entry 3 3))) = false :=
  ⟨headerBad .., headerOk_sealed _, rfl, by decide +kernel, by decide +kernel, by decide +kernel, by decide +kernel, by decide +kernel, rfl, by decide +kernel,
    by decide +kernel, by decide +kernel⟩

def wReq (dom : Nat) (typ : BitVec 4) (gen : BitVec 16) : SrcReq := ⟨some 0, dom, .posted, { blankPacket with typ := typ, dstEp := 4, rgen := gen }, none⟩
def wStream (t : Option Bool) (n : Nat) : Stream := ⟨2, 4, 9, false, 0, some 0, t, n, 0, 1, if n = 0 then [] else [n - 2], 0, false⟩
def wSource (r : SrcReq) (e : Stream) : State :=
  let s := wNet wRun
  { s with fab := { s.fab with src := [r], halves := [(0, { Half.reset with streams := [e], nextStream := 10 })] } }
theorem witness_SourceSends :
    (let s := wSource (wReq 0 3 0) (wStream (some true) 0)
     s.fab.src[0]? = some (wReq 0 3 0) ∧ s.behind 0 (wReq 0 3 0) = false ∧ s.gen 0 = (wReq 0 3 0).pkt.rgen ∧ s.ctxBarred (some 0) = false ∧
       s.srcId (some 0) s.bank = some 2 ∧ eValid (s.ept 0 s.bank 2) = true ∧ eValid (s.ept 0 s.bank 4) = true ∧
       eSlice (s.ept 0 s.bank 2) = eSlice (s.ept 0 s.bank 4) ∧ eAccepts (s.ept 0 s.bank 4) 0 = true ∧
       (s.half 0).streamOf 2 4 s.bank = some (wStream (some true) 0) ∧ s.streamHold (wReq 0 3 0) (wStream (some true) 0) = .go ∧
       (match s.hop 0 none ((wStream (some true) 0).dress (s.addressed (some 0) s.bank 2 (s.ept 0 s.bank 4) (wReq 0 3 0).pkt)) with
        | .out m q => s.portTakes m q | _ => false) = true) ∧
    (wSource (wReq 0 3 0) (wStream (some true) 2)).streamHold (wReq 0 3 0) (wStream (some true) 2) = .wait ∧
    (wSource (wReq 0 3 1) (wStream none 0)).gen 0 ≠ (wReq 0 3 1).pkt.rgen ∧ wRun.srcId (some 0) false = none ∧ eValid (wRun.ept 0 false 2) = false := by
  decide +kernel

def wOut (typ : BitVec 4) (pen : Bool) : OutReq :=
  ⟨7, false, 0, .posted, { blankPacket with typ := typ, pen := pen, dstEp := 4, stream := 9 }, 1, 0, false⟩
def wAsked (o : OutReq) (e : Stream) : State :=
  let s := wSource (wReq 0 3 0) e
  { s with fab := { s.fab with out := [o] } }
def wAns (typ : BitVec 4) (gen : BitVec 16) (st : BitVec 8) (d : Word) : Packet :=
  sealed { blankPacket with typ := typ, tag := 7, rgen := gen, status := st, data8 := d }
theorem witness_Answers :
    (∀ o ∈ [wOut 1 false, wOut 2 false, wOut 4 false, wOut 1 true], (wAsked o (wStream (some true) 0)).requestOf (wAns 10 0 3 1) = some o ∧
      o.gone = false ∧ (wAns 10 0 3 1).rgen = o.pkt.rgen ∧ o.left ≤ 1 ∧ o.status = 0 ∧
      (∀ e ∈ ((wAsked o (wStream (some true) 0)).half (epDie o.pkt.dstEp)).streams, e.ended = false) ∧
      ∃ e ∈ ((wAsked o (wStream (some true) 0)).half (epDie o.pkt.dstEp)).streams, e.tag = o.pkt.stream ∧ e.dst = o.pkt.dstEp) ∧
    ackFits (wOut 1 false).pkt = true ∧ (wAns 13 0 3 1).status = 3 ∧ bit (wAns 13 0 3 1).data8 0 = true ∧
    (wAns 10 1 0 0).rgen ≠ (wOut 1 false).pkt.rgen ∧ (∀ t g st d, headerOk (wAns t g st d) = true) ∧
    headerOk (wBadPkt 12 0 2) = false :=
  ⟨by decide +kernel, by decide +kernel, by decide +kernel, by decide +kernel, by decide +kernel, fun _ _ _ _ => headerOk_sealed _, headerBad ..⟩

/-! ## Ingress -/

/-- A request from endpoint 2 that comes to this package for endpoint 6. -/
def wIn (typ : BitVec 4) : Packet := { blankPacket with typ := typ, srcEp := 2, dstEp := 6, payload := .tile ⟨0, zeroRec⟩ }
def wGo : State := (wNet wRun).setFld (rPort 15) 60 4 2
def entered (s : State) (p : Packet) (ok allowed open' : Bool) (own : Option Nat) : Bool :=
  let w := s.lepOf 0 p
  (entriesOk (s.ept 0 p.bank p.srcEp.toNat) (s.ept 0 p.bank p.dstEp.toNat) p.tc == ok) &&
    ((p.typ == 5 || (decide (p.offset.toNat + (if p.typ = 1 ∨ p.typ = 2 then 4096 else 8) ≤ s.winSize w) &&
      decide (p.offset.toNat % (if p.typ = 1 ∨ p.typ = 2 then 4096 else 8) = 0) && (if p.typ = 1 ∨ p.typ = 3 then s.winWr w else s.winRd w))) == allowed) &&
    ((s.winValid w && (p.typ == 5 || s.fencedPlace (placeOf (s.winAddr w p)) == false)) == open') && (s.staleOwn 0 p == own)
/-- The window of endpoint 6 is not valid; the request's domain has a new generation. -/
def wNoWin : State := wGo.setRBit (rEpwBase 2) 63 false
def wOld : State := { (wGo.setFld (rRstCgen 0 0) 0 16 5) with fab := { wGo.fab with out := [⟨0, false, 0, .posted, { blankPacket with dstEp := 6 }, 1, 0, true⟩] } }
/-- Endpoint 8 is attached to service port 0, and so are endpoint 9, of another slice, and 10, for no class. -/
def svcEntry : Word := entry 0 0 ||| 0x400000
def wSvc : State := { wGo with fab := { wGo.fab with ept := wGo.fab.ept ++ [(8, svcEntry), (9, svcEntry ^^^ 0x40000000)] } }
def wFull : State :=
  let c := [(0, { Port.reset with credits := (List.range 12).map fun q => (q, 0) })]
  { wSvc with fab := { wSvc.fab with ports := c } }
def svcAsks (s : State) (dst : BitVec 19) (mine ok takes : Bool) : Bool :=
  let p : Packet := sealed { blankPacket with typ := 3, srcEp := 8, dstEp := dst, offset := 0 }
  let n := servicePort 0
  let a := s.ept (n / 18) p.bank p.srcEp.toNat
  let b := s.ept (n / 18) p.bank p.dstEp.toNat
  s.portUp n && isRequest p.typ && ((eValid a && eSvc a && (coordOf (eCoord a) == s.coord) && (eSport a == 0) && (p.bank == s.bank)) == mine) &&
    (entriesOk a b p.tc == ok) && (!ok || match s.hop (n / 18) none (s.addressed none p.bank p.srcEp b p) with
      | .out m q => s.portTakes m q == takes
      | _ => false)
theorem witness_Ingress :
    (∀ t : BitVec 4, headerOk (sealed (wIn t)) = true ∧ headerOk (wBadPkt t 0 6) = false ∧ (sealed (wIn t)).mc = false) ∧
    (∀ t ∈ ([1, 2, 3, 4, 5] : List (BitVec 4)), entered wGo (wIn t) true true true none = true ∧ entered wNoWin (wIn t) true true false none = true ∧
      entered wOld (wIn t) true true true (some 0) = true ∧
      entered wGo { wIn t with srcEp := 7 } false true true none = true) ∧
    (∀ t ∈ ([1, 2, 3, 4] : List (BitVec 4)), entered wGo { wIn t with offset := 4 } true false true none = true) ∧
    entered wGo { wIn 1 with offset := 0x200000 } true false true none = true ∧ entered wGo { wIn 1 with offset := 0x1FFFFC } true false true none = true ∧
    ([(4, true, true), (9, true, false), (7, true, false)].all fun d => svcAsks wSvc (BitVec.ofNat 19 d.1) d.2.1 d.2.2 true) = true ∧ svcAsks wFull 4 true true false = true ∧ svcAsks wGo 4 false false true = true ∧
    (match placeOf 0x40000000 with | .hbm _ _ | .reservoir _ | .cluster _ _ => true | _ => false) = true ∧
    (let s := { wGo with resets := [⟨.package, 6, false, false, false, 0, 0, false⟩] }
     wGo.resets = [] ∧ (s.resets.any fun j => j.dom == .package) = true ∧ entered s { wIn 1 with offset := 0x200000 } true false false none = true) ∧
    (wIn 1).payload = .tile ⟨0, zeroRec⟩ := by
  refine ⟨fun _ => ⟨headerOk_sealed _, headerBad .., rfl⟩, by decide +kernel, by decide +kernel, by decide +kernel, by decide +kernel, by decide +kernel,
    by decide +kernel, by decide +kernel, by decide +kernel, by decide +kernel, rfl⟩

/-- Endpoint 2's tracker entry for local endpoint 2 with five packets counted in epoch 0; the core runs a launch of context 0. -/
def wTrk : Tracker := ⟨2, 2, 9, [(0, 5)], [], false⟩
def wHalf (l : List Tracker) (h : List (Nat × Packet)) : Half := { Half.reset with trackers := l, hold := h }
def wTrack (l : List Tracker) (h : List (Nat × Packet)) : State :=
  let s := wNet (inGroup wCore wGroup 0x900)
  { s with launches := [wLaunch], fab := { s.fab with halves := [(0, wHalf l h)] } }
def wPen (typ : BitVec 4) (epoch : BitVec 8) (pcount : BitVec 24) : Packet :=
  { wIn typ with pen := true, trk := true, stream := 9, epoch := epoch, pcount := pcount, rq := 19 }
def may (s : State) (p : Packet) : Bool := match s.trackerOf p with
  | some t => decide (mget (fun _ => 0) t.counts p.epoch.toNat = p.pcount.toNat) &&
      ((p.epoch == 0 && !t.zeroDone) || t.done.contains (p.epoch - 1))
  | none => false
theorem witness_NotificationsAndPennants :
    (∀ p : Packet, headerOk (sealed p) = true) ∧
    (let s := wTrack [wTrk] []
     let p : Packet := { wIn 5 with rq := 19 }
     s.ingressStatus 0 p = none ∧ unpackCore p.core = some wc ∧ qNamed p.rq = true ∧ s.launchOf wc = some wLaunch ∧ s.lepOf 0 p ≠ 0 ∧
       wLaunch.ctx.val = s.winCtx (s.lepOf 0 p) ∧ (s.core wc).st = .run) ∧
    (∀ t ∈ ([6, 7] : List (BitVec 4)), (wTrack [] []).ingressStatus 0 (wIn t) = none) ∧
    ((wTrack (List.replicate 32768 wTrk) []).half (epDie 2)).trackers.length = 32768 ∧
    (∀ t ∈ ([1, 2, 3, 4, 5] : List (BitVec 4)), (wTrack [wTrk] []).ingressStatus 0 (wPen t 0 5) = none ∧
      may (wTrack [wTrk] []) (wPen t 0 5) = true ∧ may (wTrack [wTrk] []) (wPen t 0 6) = false ∧
      may (wTrack [{ wTrk with counts := [(1, 5)], done := [0] }] []) (wPen t 1 5) = true ∧
      (wTrack [wTrk] []).trackerOf (wPen t 0 5) = some wTrk ∧ (wTrack [] []).trackerOf (wPen t 0 5) = none ∧
      ((wTrack [wTrk] []).half (epDie 2)).hold.length < 256) ∧
    ((wTrack [wTrk] (List.replicate 256 (0, wPen 1 0 6))).half (epDie 2)).hold.length = 256 ∧
    (((wTrack [wTrk] [(0, wPen 1 0 5), (0, wPen 1 0 6)]).half 0).hold[1]?.map fun e => wTrk.ready e.2) = some false ∧
    (((wTrack [wTrk] [(0, wPen 1 0 5), (0, wPen 1 0 6)]).half 0).hold[0]?.map fun e => wTrk.ready e.2) = some true := by
  refine ⟨headerOk_sealed, by decide +kernel, by decide +kernel, List.length_replicate, by decide +kernel, List.length_replicate, by decide +kernel,
    by decide +kernel⟩

/-! ## Tables, time and rings -/

theorem num_empty (m : Mem) (h : m.pkg = []) (a n : Nat) : m.num a n = 0 := by
  have : (mslice memDefault m.pkg a n).map BitVec.toNat = List.replicate n 0 := by
    rw [h]; simp [mslice, memDefault, List.map_const']
  rw [Mem.num, Mem.bytes, this, packNat_zero]
/-- The tile at 0x40000000 as initialised. -/
theorem serve_empty (m : Mem) (h : m.pkg = []) (h' : m.tcr = []) : m.serve 0x40000 = ⟨0, zeroRec⟩ := by
  have hp : m.plainRec 0x40000 = zeroRec := by
    have : m.recAt 0x40000 = restRec 0x40000 := by simp [Mem.recAt, h']
    simp only [Mem.plainRec, this]
    have hc : termed (0x40000 * 4096) (restRec 0x40000).code = zeroRec.code := by decide +kernel
    rw [hc]; rfl
  simp only [Mem.serve, Mem.tileData, num_empty m h, hp, vetted, zero_sum, if_true, summed]
  rfl
theorem goodTile_empty (s : State) (h : s.mem.pkg = []) (h' : s.mem.tcr = []) (hf : s.failedStack (placeOf 0x40000000) = false) :
    s.goodTile 0x40000000 = some 0 := by
  have hz : classifyTile ⟨0, zeroRec⟩ = .good := by rw [classifyTile]; exact zero_good _ _ (by simp)
  rw [State.goodTile, show (placeOf 0x40000000).stored = true by decide +kernel, hf, show 0x40000000 / 4096 = 0x40000 by rfl, serve_empty _ h h']
  simp only [hz, if_true]; rfl

def wUp : State := wOn wGo
def wStream2 (n last : Nat) (t : Bool) : Stream := ⟨2, 4, 9, false, 0, some 0, some t, n, 0, n, [], last, false⟩
/-- Streams of endpoint 2: one with nothing unanswered, last used at 5, and one with a packet unanswered. -/
def wIdle (now : Nat) : State :=
  let s := wUp
  { s with now := now, fab := { s.fab with halves := [(0, { Half.reset with streams := [wStream2 0 5 false, wStream2 1 5 false] })] } }
def wArmed (ftc : Word) : State := { wUp.setReg rBankCtl 0x4000000000000002 with ftc := ftc }.setReg rBankAt 100
/-- A load of one tile into bank 1 from ID 512 is under way from the window of local endpoint 0. -/
def wLoad (x : Word) : State := withRegs wUp [(rEptLoad 0, x), (rEptSrc 0, 0x40000000), (rEpwBase 0, 0x8000000040000000), (rEpwAttr 0, 0x00C0000000000001)]
def wBadEpt (bad : List (Nat × Bool)) (e : Word) : State :=
  { wUp with now := 100000000, fab := { wUp.fab with ept := [(2, e), (0x100002, entry 0 1)], eptBad := bad } }
theorem witness_FabricTables :
    wUp.accepts .mgmtCore rBankCtl = true ∧ bit 1 0 = true ∧ bit 3 0 = true ∧ bit 1 1 = wUp.rbit rBankCtl 63 ∧
    bit 3 1 = (!wUp.rbit rBankCtl 63) ∧ ((wArmed 99).ftc.toNat < ((wArmed 99).reg rBankAt).toNat) ∧
    (∀ f ∈ [wArmed 100, wArmed 101], (f.reg rBankAt).toNat ≤ f.ftc.toNat ∧ f.rbit rBankCtl 62 = true ∧
      f.rbit rBankCtl 1 = (!f.rbit rBankCtl 63) ∧ f.accepts .mgmtCore rBankCtl = true) ∧
    (wUp.rbit rBankCtl 62 = false) ∧ ((wIdle 10005).half 0).streams[0]? = some (wStream2 0 5 false) ∧
    ((wIdle 10004).half 0).streams[1]? = some (wStream2 1 5 false) ∧
    (wStream2 0 5 false).lastSent + 10000 ≤ (wIdle 10005).now ∧ (wIdle 10004).now < (wStream2 0 5 false).lastSent + 10000 ∧
    (∀ die, wUp.accepts .mgmtCore (rEptIdx die) = true ∧ wUp.accepts .mgmtCore (rEptLoad die) = true ∧ wUp.rbit (rEptLoad die) 63 = false) ∧
    (bit 0xE000000000000007 63 = true ∧ bit 0xE000000000000007 62 = true ∧ bit 0xE000000000000007 61 = true) ∧
    (true ≠ wUp.rbit rBankCtl 63 ∧ wUp.fld (rBankCnt true) 32 32 = wUp.fld (rBankCnt true) 0 32) ∧ bit 0xC000000000000007 61 = wUp.rbit rBankCtl 63 ∧
    bit 0x8000000000000007 62 = false ∧ bit 0x3001000000000200 60 = true := by
  decide +kernel
theorem witness_FabricTables_load :
    (let s := wLoad 0xA001000000000200
     s.rbit (rEptLoad 0) 63 = true ∧ s.loadOk 512 1 0x40000000 = true ∧ s.bankBusy true = false ∧ s.fld (rEptSrc 0) 12 36 * 4096 = 0x40000000 ∧
       fieldN (s.reg (rEptLoad 0)) 0 19 = 512 ∧ fieldN (s.reg (rEptLoad 0)) 48 11 = 1 ∧ s.goodTile 0x40000000 = some 0) ∧
    (wLoad 0xA001000000000201).loadOk 513 1 0x40000000 = false ∧ (wLoad 0x8001000000000200).bankBusy false = true ∧
    (wIdle 99999999).now < (wIdle 99999999).fab.walkAt + 100000000 ∧
    (let s := wBadEpt [] (entry 0 2)
     s.fab.walkAt + 100000000 ≤ s.now ∧ mget (fun _ => false) s.fab.eptBad (eptKey 0 false 2) = false ∧
       mget (fun _ => 0) s.fab.ept (eptKey 0 false 2) ≠ mget (fun _ => 0) s.fab.ept (eptKey 1 false 2)) ∧
    (let s := wBadEpt [(2, true)] 0
     s.fab.walkAt + 100000000 ≤ s.now ∧ mget (fun _ => false) s.fab.eptBad (eptKey 0 false 2) = true ∧
       mget (fun _ => false) s.fab.eptBad (eptKey 1 false 2) = false) :=
  ⟨⟨by decide +kernel, by decide +kernel, by decide +kernel, by decide +kernel, by decide +kernel, by decide +kernel,
    goodTile_empty _ (by decide +kernel) (by decide +kernel) (by decide +kernel)⟩, by decide +kernel, by decide +kernel, by decide +kernel,
    by decide +kernel, by decide +kernel⟩

/-! ### Time -/

/-- The package at x = 1, with markers of offset `off` seen at ports 0 and 1 of its X+ group. -/
def wTimed (ph : Nat) (off : BitVec 32) (good now : Nat) : State :=
  let s := ((wUp.setReg rGeom 0x1000000000000001).setFld rMgtBoot 60 4 ph).setFld (rPort 1) 60 4 2
  { s with
    now := now, fab := { s.fab with markers := [(0, ⟨true, 5, off, true, false, 1⟩), (1, ⟨true, 5, off, true, false, 1⟩)] }
    sys := { s.sys with sync := { s.sys.sync with steerAt := 0, good := good } } }
def steers (s : State) (d : Int) (stepped : Bool) : Bool :=
  decide (s.sys.sync.steerAt + 1000000 ≤ s.now) && !s.sys.record.isEmpty && !s.isRoot && (s.parentDir == some 0) && !(s.markedUp 0).isEmpty &&
    decide (s.avgOffset 0 = d) && (stepped == (s.phase == 6 || s.sys.sync.stepped))
def wLost (s : State) : State :=
  let s := s.setFld (rPort 0) 60 4 0
  { s.setFld (rPort 1) 60 4 0 with fab := { s.fab with markers := [] } }
theorem witness_FabricTime :
    wUp.portUp 0 = true ∧ wUp.portUp 1 = false ∧ wUp.accepts .mgmtCore rObsFtcSet = true ∧ wUp.isRoot = true ∧ wUp.rbit rObsSync 60 = false ∧
    (wTimed 6 0 0 0).isRoot = false ∧ (wUp.setRBit rObsSync 60 true).rbit rObsSync 60 = true ∧ wUp.phase = 6 ∧
    ¬ ((wTimed 4 0 0 999999).sys.sync.steerAt + 1000000 ≤ (wTimed 4 0 0 999999).now) ∧ steers (wTimed 4 160 0 1000000) 160 false = true ∧
    steers (wTimed 6 64 99 1000000) 64 true = true ∧ steers (wTimed 6 65 99 1000000) 65 true = true ∧
    steers (wTimed 6 0xFFFFFFC0 98 1000000) (-64) true = true ∧ steers (wTimed 6 0xFFFFFFBF 98 1000000) (-65) true = true ∧
    (let s := wLost (wTimed 6 0 0 1000000)
     s.sys.sync.steerAt + 1000000 ≤ s.now ∧ s.sys.record ≠ [] ∧ s.isRoot = false ∧ s.parentDir = none) ∧
    (∀ s ∈ [(wTimed 6 0 0 60000000000).setRBit rObsSync 62 true, (wTimed 6 0 0 60000000001).setRBit rObsSync 62 true],
      s.rbit rObsSync 62 = true ∧ s.sys.sync.holdAt + 60000000000 ≤ s.now) ∧
    (wTimed 6 0 0 59999999999).now < (wTimed 6 0 0 59999999999).sys.sync.holdAt + 60000000000 := by decide +kernel

/-! ## Collectives -/

/-- A descriptor with the given fields: byte, value. -/
def wDesc (l : List (Nat × Nat)) : BitVec 1024 := BitVec.ofNat 1024 (l.foldl (fun n e => n + e.2 * 2 ^ (8 * e.1)) 0)
def wCollOf (l : List (Nat × Nat)) (p : Nat × Nat × Nat) : Coll := wUp.newColl 0 5 0 0 (wDesc l) p
/-- A 4 x 4 x 2 group with 256 units. -/
def wGrid (x y z : Nat) : Coll := wCollOf [(0x18, 4), (0x19, 4), (0x1A, 2), (0x20, 256)] (x, y, z)
theorem witness_RingSchedule : (wGrid 1 2 0).ext 0 = 4 ∧ (wGrid 1 2 0).ext 1 = 4 ∧ (wGrid 1 2 0).ext 2 = 2 ∧ (wGrid 1 2 0).px = 1 ∧
    (wGrid 1 2 0).py = 2 ∧ (wGrid 1 2 0).pz = 0 ∧ (wGrid 1 2 0).units = 256 ∧ NextOn 0 (wGrid 3 2 0) (wGrid 0 2 0) ∧ NextOn 2 (wGrid 1 2 0) (wGrid 1 2 1) ∧
    (∀ a ∈ [0, 1, 2], 1 < (wGrid 3 2 0).ext a ∧ (wGrid 3 2 0).pos a < (wGrid 3 2 0).ext a) ∧
    segAt 0 64 4 1 ≤ 16 ∧ 16 < segAt 0 64 4 2 := by
  unfold NextOn; decide +kernel

/-- An all-reduce of 8 units of KS64 in a group of two packages, identifier 7, for the window of endpoint 6. -/
def wFields : List (Nat × Nat) := [(0, 3), (0x10, 7), (0x15, 0x20), (0x16, 2), (0x17, 0xF0), (0x18, 2), (0x19, 1), (0x1A, 1), (0x1C, 8), (0x20, 8), (0x30, 2)]
def wC : Coll := wCollOf wFields (0, 0, 0)
def wGroupOf (l : List Coll) (now : Nat) : State := { wUp.setReg (rCtxQuota 0) 0x1000000 with colls := l, now := now }
def wMsg (kind : BitVec 24) (src : BitVec 19) (d : Word) : Packet :=
  { blankPacket with typ := 9, srcEp := src, dstEp := 6, coll := kind, data8 := 0x700000000 ||| d }
def heardBy (s : State) (p : Packet) (c : Coll) : Bool :=
  let v := s.modColl c.ring c.idx fun c => { c with lastData := mput (fun _ => 0) c.lastData 0 s.now }
  (s.ingressStatus 0 p == none) && (s.collOf 0 p == some c) && match (v.answer 0 p stOk).findColl c.ring c.idx with
    | some x => x.id == c.id && x.ctx == c.ctx && x.desc == c.desc
    | none => false
def wHeld : Coll := { wC with phase := .held }

theorem wide_ok (d : Word) (h : d.setWidth 32 = 0xFFFFFFFF#32) : payloadOk { wMsg 1 4 d with payload := .wide 0xFFFFFFFF, data8 := d } = true := by
  simp only [payloadOk, payloadBytes]
  rw [show bytesOf 20480 (0xFFFFFFFF : BitVec 20480) 2560 = [255, 255, 255, 255] ++ List.replicate 2556 0 by decide +kernel, crc32c, List.foldl_append]
  rw [show ([255, 255, 255, 255] : List Byte).foldl crc32cByte 0xFFFFFFFF#32 = 0 from crc_ones, crc_zeros, h]
  decide
def wData (d : Word) : Packet := { wMsg 1 4 0 with payload := .wide 0xFFFFFFFF, data8 := 0x700000000 ||| d }
def wRunning : Coll := { wC with phase := .running, lastData := [(0, 5)] }
def seesAll (l : List (Nat × BitVec 32)) : Bool := (List.range 2).all fun r => l.any fun e => e.1 == r
theorem witness_CollectiveMessages :
    (let s := wGroupOf [wC] 0
     s.colls.find? (fun x => x.id == 7 && s.mayReserve x) = some wC ∧ s.findColl wC.ring wC.idx = some wC ∧
       (s.colls.map fun x => (x.ring, x.idx)).Nodup) ∧
    (∀ c ∈ [{ wHeld with again := some akHeld }, { wHeld with again := some akYield, yield := some true }],
      (wGroupOf [c] 10000).colls.find? (fun x => x.id == 7 && (x.again.isSome && decide (x.lastMsg + 10000 ≤ 10000))) = some c ∧
        10000 < c.since + c.rwait ∧ (c.again = some akHeld ∨ c.again = some akYield)) ∧
    (∀ c ∈ [wC, { wHeld with goSent := true }, { wC with px := 1 }],
      (wGroupOf [c] 100000000).colls.find? (fun x => x.id == 7 && (x.phase != .running && decide (x.since + x.rwait ≤ 100000000))) = some c ∧
        (wGroupOf [c] 100000000).findColl c.ring c.idx = some c ∧ c.yield ≠ some true) ∧
    ({ wC with px := 1 }.rank ≠ 0 ∧ wC.rank = 0 ∧ wC.goSent = false) ∧
    (∀ n ∈ [10000005, 10000004], (wGroupOf [wRunning] n).colls.find? (fun x => x.id == 7 && x.phase == .running) = some wRunning ∧
      1 < wRunning.size ∧ wRunning.wants 0 = true ∧ (mget (fun _ => 0) wRunning.lastData 0 + mget (fun _ => 0) wRunning.dlimit 0 ≤ n ↔ n = 10000005)) ∧
    (∀ k ∈ ([2, 4, 9] : List Nat), ∀ c ∈ [wHeld, { wHeld with goSent := true }, { wHeld with helds := [(0, 1)] }, { wHeld with helds := [(0, 1), (1, 2)] }],
      heardBy (wGroupOf [c] 1) (wMsg (BitVec.ofNat 24 k) 4 1) c = true ∧
        (wGroupOf [c] 1).senderRank c 0 (wMsg (BitVec.ofNat 24 k) 4 1) = some 1 ∧ c.rank = 0 ∧ cfKind (BitVec.ofNat 24 k) = k) ∧
    (seesAll [(0, 1), (1, 1)] = true ∧ seesAll [(1, 1)] = false) ∧
    (∀ k ∈ ([3, 5, 6, 7, 8] : List Nat), ∀ c ∈ [wC, wHeld, { wHeld with yield := some true }, { wHeld with yield := some false }],
      heardBy (wGroupOf [c] 1) (wMsg (BitVec.ofNat 24 k) 2 1) c = true ∧ c.reduces = true ∧ c.levels ≠ []) ∧
    (∀ n ∈ ([0, 2] : List Nat), wRunning.awaits { wData 0 with offset := BitVec.ofNat 40 n } = true ∧
      wRunning.applied { wData 0 with offset := BitVec.ofNat 40 n } = false ∧ wRunning.slotAt 0 false n = none ∧
      { wRunning with fin := [finKey 0 false n] }.applied { wData 0 with offset := BitVec.ofNat 40 n } = true) ∧
    heardBy (wGroupOf [wRunning] 1) (wData 0xFFFFFFFF) wRunning = true ∧ payloadOk (wMsg 1 4 1) = false ∧
    (∀ k ∈ List.range 10, (wGroupOf [] 1).ingressStatus 0 (wMsg (BitVec.ofNat 24 k) 2 0) = none ∧
      (wGroupOf [] 1).collOf 0 (wMsg (BitVec.ofNat 24 k) 2 0) = none) := by
  refine ⟨by decide +kernel, by decide +kernel, by decide +kernel, by decide +kernel, by decide +kernel, by decide +kernel, by decide +kernel,
    by decide +kernel, by decide +kernel, by decide +kernel, by decide +kernel, by decide +kernel⟩
theorem witness_payload : payloadOk (wData 0xFFFFFFFF) = true := wide_ok _ (by decide +kernel)

/-! ## Commands -/

/-- Ring 0, a management ring of port 0, is enabled with 16 slots at 0x40000000 and completions at 0x40001000; commands 0 to 2 wait. -/
def wRing (s : State) : State :=
  withRegs (wMapped s) [(rRingCfg 0, 0xC000000040000000), (rCqCfg 0, 0x40001000), (rRingIdx 0, 0x300000000), (rHstPcie 0, 0x2000000000000000),
    (rHstEth 0, 0x1000000000000000)]
def wHost : State := wRing wUp
def wCmd (ty : Nat) (d : Bool) : Cmd := ⟨0, 0, wDesc [(0, ty), (4, 9)], 5, 0, 0, 0, 0, d⟩
def wStarted (c : Cmd) (s : State) : State := { s with host := { s.host with cmds := [c], ringNext := [(0, 1)] } }
theorem witness_RingsAndRecords :
    wHost.mem.ops = [] ∧ doorFn (.vf 1 0) = some (1, .vf 0) ∧ doorFn (.pf 0) = some (0, .pf) ∧
    doorPort (.vf 1 0) = some 1 ∧ wHost.pcieUp 1 = false ∧ doorPort (.pf 0) = some 0 ∧ wHost.pcieUp 0 = true ∧
    (wHost.ringEn 0 = true ∧ wHost.doorFrom (.pf 0) 0 = true ∧ wHost.doorFrom (.vf 0 0) 0 = false ∧ (4 - wHost.ringTail 0).toNat = 1 ∧
      (19 - wHost.ringTail 0).toNat = wHost.ringSize 0 ∧ wHost.ringSize 0 < (20 - wHost.ringTail 0).toNat ∧ (3 - wHost.ringTail 0).toNat = 0) ∧
    wHost.accepts .mgmtCore (rRingCfg 0) = true ∧ wHost.ringCmds 0 = [] ∧ (wStarted (wCmd 5 false) wHost).ringCmds 0 ≠ [] ∧ bit 0 63 = false ∧
    (let s := wUp.setReg (rCqCfg 1) 0x40001000
     s.ringEn 1 = false ∧ s.accepts .mgmtCore (rRingCfg 1) = true ∧ fieldN 0x80C0000040000000 52 4 = 12 ∧ fieldN 0x80C0000040000000 60 2 ≠ 3 ∧
       bit 0x80C0000040000000 63 = true ∧ ∀ k, k < 512 → (match placeOf (s.cqBase 1 + 4096 * k) with | .hbm _ _ | .reservoir _ => true | _ => false) = true ∧
         s.fencedPlace (placeOf (s.cqBase 1 + 4096 * k)) = false) ∧
    (12 < fieldN 0x80D0000040000000 52 4 ∧ fieldN 0xB000000040000000 60 2 = 3) ∧
    (∀ c ∈ [wCmd 5 false, wCmd 4 false, wCmd 5 true],
      ((wStarted c wHost).host.cmds.find? fun c => c.ring == 0 && c.idx == 0) = some c ∧ c.type < 256 ∧ dsc c.desc 4 4 < 2 ^ 32) ∧
    (wCmd 5 false).type ≠ 4 ∧ (wCmd 4 false).type = 4 ∧ dsc (wCmd 4 false).desc 0x10 1 = 0 ∧ (wStarted (wCmd 4 false) wHost).ringLow 0 = 0 ∧
    ((wStarted (wCmd 4 false) wHost).setReg (rRingIdx 0) 0x3FFFFFFFF).ringLow 0 ≠ 0 ∧
    ((wStarted (wCmd 4 false) wHost).host.halted = [] ∧ (wStarted (wCmd 4 false) wHost).rbit rObsLogCfg 63 = false ∧
      (wStarted (wCmd 4 false) wHost).ringStopped 0 = false ∧ (match placeOf (wHost.cqBase 0) with | .hbm _ _ | .reservoir _ => true | _ => false) = true ∧
      wHost.fencedPlace (placeOf (wHost.cqBase 0)) = false ∧ (wHost.setRBit (rRingCfg 0) 59 true).ringStopped 0 = true ∧
      (wHost.setReg (rCqCfg 0) 0x2100000000).cqPlace 0 (placeOf ((wHost.setReg (rCqCfg 0) 0xFFFF00000000).cqBase 0)) = false) := by decide +kernel
/-- The descriptor may start as the next of ring 0, and the package does not refuse it. -/
def mayStart (s : State) (d : BitVec 1024) : Bool := s.ringGoes 0 && s.descGoes 0 d && descOk (s.ringMgmt 0) d
def wFence (sel ty dom : Nat) : BitVec 1024 := wDesc [(0, 4), (0x10, sel), (0x11, ty), (0x12, dom)]
def wMoveD (k src dst : Nat) : BitVec 1024 := wDesc [(0, 2), (0x10, k), (0x14, 2), (0x18, src), (0x20, dst)]
def opened (s : State) (l : List Nat) : Bool := l.all fun pa => !s.fencedPlace (placeOf pa) &&
  match placeOf pa with | .hbm _ _ | .reservoir _ | .cluster _ _ => true | _ => false
/-- The tiles of the two sides translate and lie open. -/
def wTiles (s : State) (d : BitVec 1024) (src dst : Bool) : Bool :=
  let b := (s.beginCmd 0 d 0).modCmd 0 0 fun c => { c with left := dsc d 0x14 4 }
  let side := fun (v : State) o wr on => if on then match v.translateTiles .engine 0 0 (BitVec.ofNat 64 (dsc d o 8)) wr (dsc d 0x14 4) with
      | (w, .ok l) => (w, opened w l && l.length == dsc d 0x14 4)
      | (w, .error _) => (w, false)
    else (v, true)
  let a := side b 0x18 false src
  a.2 && (side a.1 0x20 true dst).2
def wMaint : BitVec 1024 := wDesc [(0, 6), (0x10, 1)]

/-- As above, with empty memory. -/
def wHost0 : State := withRegs wUp [(rRingCfg 0, 0xC000000040000000), (rCqCfg 0, 0x40001000), (rRingIdx 0, 0x300000000), (rHstPcie 0, 0x2000000000000000)]
/-- The next descriptor of ring 0 reads as zeros, and classifies GOOD. -/
theorem readDesc_empty : ∃ w, wHost0.readDesc 0 = (w, .ok (0, .good)) := by
  let s1 := ((wHost0.landSome 0x40000).countRows (placeOf 0x40000000) false 64).countUncorr (placeOf 0x40000000)
  have hs : s1.mem.serve 0x40000 = ⟨0, zeroRec⟩ := serve_empty _ (by decide +kernel) (by decide +kernel)
  have he : wHost0.engineTile 0x40000000 0 fmtUntyped = (s1, .ok ⟨0, zeroRec⟩) := by
    unfold State.engineTile
    rw [show placeOf 0x40000000 = .hbm 0 0 by decide +kernel]
    simp only [show wHost0.fencedPlace (.hbm 0 0) = false by decide +kernel, Bool.false_eq_true, if_false]
    rw [← show placeOf 0x40000000 = .hbm 0 0 by decide +kernel, show s1.failedStack (placeOf 0x40000000) = false by decide +kernel]
    simp only [Bool.false_eq_true, if_false]
    exact congrArg (fun t => (s1, Except.ok t)) hs
  have hc : classify 0 zeroRec [0, 1] false = .good := zero_good _ _ (by decide)
  have hz : bitsAt (0 : BitVec 32768) (8 * (0x40000000 % 4096)) 1024 = 0 := by decide +kernel
  refine ⟨s1.flogTile 0x40000000 .good zeroRec, ?_⟩
  simp only [State.readDesc, show wHost0.ringBase 0 + (wHost0.ringNext 0).toNat % wHost0.ringSize 0 * 128 = 0x40000000 by decide +kernel]
  rw [show placeOf 0x40000000 = .hbm 0 0 by decide +kernel, show 0x40000000 / 4096 * 4096 = 0x40000000 by decide, show 0 / 4 = 0 from rfl]
  simp only [he]
  rw [show 0 + 1 = 1 from rfl, hc, hz]; rfl
def wMoves : List (BitVec 1024) :=
  [wMoveD 0 0x2000 0x5000, wMoveD 1 0x2000 0x40000000000, wMoveD 2 0x40000000000 0x2000, wMoveD 3 0x2000 0x12345, wMoveD 4 0x12345 0x2000]
def wReady : List (BitVec 1024) :=
  [wFence 0 0 0, wFence 1 0 0, wFence 2 1 0, wFence 2 3 128, wFence 2 4 15, wDesc [(0, 5), (0x10, 0x2000), (0x20, 1)], wMaint] ++ wMoves
theorem witness_CommandsAndMoves :
    wReady.all (mayStart wHost) = true ∧ descOk (wHost.ringMgmt 0) (wDesc [(0, 7)]) = false ∧ wHost.descGoes 0 (wDesc [(0, 7)]) = true ∧
    wUp.ringGoes 0 = false ∧
    (wHost0.ringGoes 0 = true ∧ wHost0.tileQuiet ((wHost0.ringBase 0 + (wHost0.ringNext 0).toNat % wHost0.ringSize 0 * 128) / 4096) = true ∧
      wHost0.descGoes 0 0 = true ∧ (match ((wHost0.setFld (rRingCfg 0) 12 36 0x20000000).readDesc 0).2 with | .error st => st != 0 | _ => false) = true) ∧
    (wReady.map dType = [4, 4, 4, 4, 4, 5, 6, 2, 2, 2, 2, 2] ∧ wMoves.map (fun d => dsc d 0x10 1) = [0, 1, 2, 3, 4]) ∧
    (fenceWho (wFence 2 1 0) = some (.core wc) ∧ fenceWho (wFence 2 4 15) = some (.context 15) ∧ wHost.resets = []) ∧
    ({ wHost with launches := [wLaunch] }.findLaunch 0 (dTarget (wFence 1 0 0)) = some wLaunch ∧ wHost.findLaunch 0 0 = none ∧ wHost.findColl 0 0 = none ∧
      { wHost with colls := [{ wC with idx := 0 }] }.findColl 0 (dTarget (wFence 1 0 0)) = some { wC with idx := 0 }) ∧
    (wHost.beginCmd 0 wMaint 0).maintRefused wMaint = none ∧
      (wHost.beginCmd 0 (wDesc [(0, 6), (0x10, 30)]) 0).maintRefused (wDesc [(0, 6), (0x10, 30)]) = some 0x0C ∧
    wTiles wHost (wMoveD 0 0x2000 0x5000) true true = true ∧ wTiles wHost (wMoveD 1 0x2000 0x40000000000) true false = true ∧
    wTiles wHost (wMoveD 2 0x40000000000 0x2000) false true = true ∧ wTiles wHost (wMoveD 0 0x7F00002000 0x5000) true false = false ∧
    wTiles wHost (wDesc [(0, 5), (0x10, 0x2000), (0x14, 1), (0x18, 0x2000)]) true false = true ∧
    (wHost.ethUp 0 = true ∧ wUp.ethUp 0 = false) := by
  decide +kernel

/-- The host state with a window for collectives, a slot quota, and a page table in every partition. -/
def wColls : State :=
  let s := withRegs wHost [(rMgtLic, 0x8000000100000007), (rEpwAttr 2, 0x01C0000000000001), (rCtxQuota 0, 0x1000000), (rPtRoot 1 0, 0x8000000000200000),
    (rPtRoot 2 0, 0x8000000000200000), (rPtRoot 3 0, 0x8000000000200000)]
  { s with mem := { s.mem with pkg := (List.range 4).flatMap fun p => [(p * 0x8000000000 + 0x200003, 0x40), (p * 0x8000000000 + 0x200007, 0xF0)] } }
def wCollD (op : Nat) (l : List (Nat × Nat)) : BitVec 1024 :=
  wDesc ([(0, 3), (0x10, 7), (0x14, op), (0x17, 0xF0), (0x18, 2), (0x19, 1), (0x1A, 1), (0x30, 2), (0x38, 0x80000), (0x40, 0x40000)] ++ l)
def wReduce (op : Nat) : BitVec 1024 := wCollD op [(0x15, 0x20), (0x16, 2), (0x1C, 8), (0x20, 8)]
def wGather : BitVec 1024 := wCollD 2 [(0x15, 0x20), (0x1C, 8), (0x20, 8)]
def wDispatch : BitVec 1024 := wCollD 3 [(0x15, 0x20), (0x24, 1), (0x28, 4), (0x34, 4), (0x58, 0xC0000), (0x60, 0xE0000)]
/-- What the checks of a COLLECTIVE answer: its fields, its group, its ranges, the tier, its quota. -/
def collChecks (s : State) (d : BitVec 1024) : List Bool :=
  let b := s.beginCmd 0 d 0
  match b.positions 0 (dsc d 0x18 1) (dsc d 0x19 1) (dsc d 0x1A 1) b.coord with
  | none => []
  | some p =>
    let c := b.newColl 0 0 0 0 d p
    let w := b.allRangesOk c c.present
    [collFieldsOk d, w.2, (c.reduces && c.far == 2) || c.pipe, w.1.tier == 2, decide (c.slots ≤ w.1.slotQuota 0)]
/-- An image of one package, with one group of one span and no cores, and the digest that it carries. -/
def wImageOf (digest : Nat) : List Byte :=
  bytesOf (8 * 0x130) (BitVec.ofNat (8 * 0x130) (([(0, 0x4B395343), (4, 1), (0xC, 1400), (0xE, 1), (0x14, 1), (0x18, 1), (0x1A, 1), (0x1C, 1), (0x20, 9),
    (0x28, 1000000), (0x30, 0x100), (0x38, 0x120), (0x58, 0x130), (0xD0, digest), (0x104, 1), (0x128, 100)] : List (Nat × Nat)).foldl
      (fun n e => n + e.2 * 2 ^ (8 * e.1)) 0)) 0x130
def wImage : List Byte := wImageOf 0x3d28597082ab1eb96c0fc1fca46cde847fe6814cec502716a72552157bddb67aa6081d01d2fcbeedccce94634123bc6f
/-- The image lies at context address 0x2000. -/
def wImaged : State :=
  let cells := ((wImage.zipIdx).filter fun e => e.1 != 0).map fun e => (0x40002000 + e.2, e.1)
  { wColls with mem := { wColls.mem with pkg := [(0x200003, 0x40), (0x200007, 0xF0)] ++ cells } }
def wLaunchD : BitVec 1024 := wDesc [(0, 1), (0x10, 0x2000), (0x18, 5)]
def imageChecks (s : State) (d : BitVec 1024) (k : Nat) : List Bool :=
  match (s.beginCmd 0 d 0).readImage 0 0 (dsc d 0x10 8) with
  | (_, .error _) => []
  | (w, .ok img) =>
    let l := newLaunch 0 0 0 0 d img [] ((w.imageIndex img (coordOf (BitVec.ofNat 15 (dsc d 0x20 2)))).getD (leAt img 0x14 2))
    let mine := (localEntries l).map Prod.snd
    [!w.lacks (imageNeeds img), w.boxFits img, mine.all fun e => w.launchable e.core, epmapOk img [] k,
      decide ((groupsOf mine).length ≤ w.freeSlots.length), img == wImage]
theorem image_ok : imageOk wImage = true := by decide +kernel
theorem witness_CollectivesAndLaunches :
    [wReduce 0, wReduce 1, wGather, wDispatch, wCollD 0 [(0x18, 1)], wLaunchD].all (mayStart wColls) = true ∧
    [wReduce 0, wReduce 1, wGather, wDispatch].map (fun d => dsc d 0x14 1) = [0, 1, 2, 3] ∧
    collChecks wColls (wReduce 0) = [true, true, true, true, true] ∧ collChecks wColls (wReduce 1) = [true, true, true, true, true] ∧
    collChecks wColls wGather = [true, true, false, true, true] ∧ collChecks wColls wDispatch = [true, true, false, true, true] ∧
    collChecks (wColls.setFld rMgtLic 62 2 1) (wReduce 0) = [true, true, true, false, true] ∧
    collChecks (wColls.setReg (rCtxQuota 0) 0) (wReduce 0) = [true, true, true, true, false] ∧ collChecks wHost (wReduce 0) = [true, false, true, false, false] ∧
    collChecks wColls (wCollD 0 [(0x18, 1)]) = [] ∧ collFieldsOk (wCollD 0 [(0x1B, 1)]) = false ∧ wColls.colls = [] ∧
    mayStart wImaged wLaunchD = true ∧ dType wLaunchD = 1 ∧ dType wGather = 3 := by decide +kernel
theorem witness_image : imageChecks wImaged wLaunchD 0 = [true, true, true, true, true, true] := by decide +kernel

/-! ## Mailboxes -/

/-- Context 0 is active, with quotas, and stack 0 of partition 0 is in service. -/
def wMail (s : State) : State :=
  withRegs s [(rCtxStat 0, 0x9000000000000000), (rCtxQuota 0, 0x0006400010000000), (rHbmStat 0 0, 2), (rEpwAttr 2, 0)]
def wBox : State := wMail ((wHost0.setReg (rEpwBase 2) 0))
/-- Context 0 has the page at 5 x 2 MiB, as a page of 2 MiB, and window 2, on it. -/
def wPaged : State :=
  let s := withRegs wBox [(rPtRoot 0 0, 0x8000000000200000), (rEpwBase 2, 0x8000000040000000), (rEpwAttr 2, 0x00C0000000000001)]
  { s with mem := { s.mem with pkg := [(0x200002, 0x40), (0x200007, 0x80), (0x40002B, 0x40), (0x40002F, 0xF0)] } }
def wRq (l : List (Nat × Nat)) : BitVec 512 := BitVec.ofNat 512 (l.foldl (fun n e => n + e.2 * 2 ^ (8 * e.1)) 0)
def wMapQ (n ca : Nat) : BitVec 512 := wRq [(0, 1), (4, n), (8, ca)]
def wSetQ (n ca : Nat) : BitVec 512 := wRq [(0, 3), (1, 3), (4, n), (8, ca)]
def boxTakes (s : State) (q : BitVec 512) (op : Nat) : Bool :=
  s.pcieUp 0 && s.phase == phReady && !(s.mailbox (mailKey 0)).busy && rq q 0 1 == op
def boxActive (s : State) : Bool := s.rbit (rCtxStat 0) 63 && s.fld (rCtxStat 0) 60 3 == 1
/-- The state as a request is looked at. -/
def boxed (s : State) (q : BitVec 512) : State :=
  s.setMailbox (mailKey 0) { s.mailbox (mailKey 0) with req := q, busy := true }
theorem witness_MailboxesAndWindows :
    [(1, wMapQ 2 0xA00000), (2, wRq [(0, 2), (4, 1), (8, 0xA00000)]), (3, wSetQ 1 0xA00000), (4, wRq [(0, 4), (0x10, 2)]), (5, wRq [(0, 5)])].all
      (fun e => boxTakes wBox e.2 e.1 && boxTakes wPaged e.2 e.1) = true ∧ boxActive wBox = true ∧ boxActive wPaged = true ∧
    boxActive (wBox.setReg (rCtxStat 0) 0) = false ∧ boxTakes wBox (wRq [(0, 5)]) 4 = false ∧
    rqClean (wRq [(0, 5)]) [0] = true ∧ rqClean (wRq [(0, 5), (9, 1)]) [0] = false ∧ rqPages (wMapQ 2 0x1000) = none ∧ rqPages (wMapQ 0 0) = none ∧
    (let q := wMapQ 2 0xA00000
     let m := boxed wBox q
     rq q 2 1 < 4 ∧ rqPages q = some (5, 2) ∧ rq q 1 1 ≤ 1 ∧ rqClean q ([0, 1, 2] ++ rqRange) = true ∧ m.mappedFor 0 = [] ∧
       m.pagesUsed 0 (rq q 1 1 == 0) + 2 ≤ wBox.fld (rCtxQuota 0) 44 20 ∧ m.findPages (rq q 1 1 == 1) ⟨rq q 2 1 % 4, by omega⟩ 2 = some 0 ∧
       m.host.tables + (m.giveRoots 0).tablesNeeded ((m.giveRoots 0).roots 0) 5 2 ≤ tablesMax) ∧
    (let q := wMapQ 101 0xA00000
     rqPages q = some (5, 101) ∧ wBox.fld (rCtxQuota 0) 44 20 < (boxed wBox q).pagesUsed 0 true + 101) ∧
    ((boxed (wBox.setReg (rHbmStat 0 0) 0) (wMapQ 2 0xA00000)).findPages false 0 2 = none) ∧
    (let q := wRq [(0, 2), (4, 1), (8, 0xA00000)]
     rqPages q = some (5, 1) ∧ rqClean q (0 :: rqRange) = true ∧ ⟨5, 512, 1⟩ ∈ (boxed wPaged q).mappedFor 0 ∧ (boxed wBox q).mappedFor 0 = []) ∧
    (let q := wSetQ 1 0xA00000
     let m := boxed wPaged q
     rqPages q = some (5, 1) ∧ contiguous (m.mappedFor 0) 5 1 = some 512 ∧ rq q 1 1 ≤ 7 ∧ rqClean q ([0, 1] ++ rqRange) = true ∧
       windowOk 512 1 = true ∧ m.windowsUsed 0 + 1 ≤ wPaged.fld (rCtxQuota 0) 25 6 ∧ m.freeWindow = some 1 ∧
       (wPaged.setReg (rCtxQuota 0) 0).fld (rCtxQuota 0) 25 6 < m.windowsUsed 0 + 1) ∧
    (let q := wRq [(0, 4), (0x10, 2)]
     rq q 0x10 1 = 2 ∧ wPaged.winValid 2 = true ∧ wPaged.winCtx 2 = 0 ∧ rqClean q [0, 0x10] = true ∧ wBox.winValid 2 = false) ∧
    (let s := { wPaged with host := { wPaged.host with epwBusy := [2] } }
     2 ∈ s.host.epwBusy ∧ s.windowWork 2 = false ∧ 3 ∉ s.host.epwBusy) ∧
    (∀ w ∈ [wPaged, wBox], w.accepts .mgmtCore (rEpwBase 2) = true) ∧ bit 0x8000000040000000 63 = true ∧
    windowOk (fieldN 0x8000000040000000 21 27) (wBox.fld (rEpwAttr 2) 0 20) = false ∧
    windowOk (fieldN 0x8000000040000000 21 27) ((wBox.setReg (rEpwAttr 2) 1).fld (rEpwAttr 2) 0 20) = true := by decide +kernel

/-! ## Host links and application cores -/

/-- BAR2 of port 0 at 0x40000000's 4 GiB, and a region registered for remote initiators. -/
def wBar : State :=
  let s := (wHost.setReg (rHstAper 0) 0)
  { s with host := { s.host with regions := [⟨9, 0, 0x40000000, 1, fmtUntyped⟩] } }
theorem witness_HostLinks :
    wBar.mem.ops = [] ∧ ({ wOp 0 false wPart with who := .bar 0 .pf } : PocOp).who = .bar 0 .pf ∧
    2 ≤ wBar.phase ∧ (0 : Nat) ∉ wBar.host.portsHeld ∧ (16#5).toNat ∈ [1, 4, 8, 16] ∧ wUp.pcieUp 0 = false ∧ wBar.pcieUp 0 = true ∧
    wBar.barServed .pf = true ∧ wBar.barServed (.vf 0) = true ∧ (wBar.setFld rMgtBoot 60 4 1).barServed .pf = false ∧
    wBar.barAddr 0 .pf 0x40000000 8 = some 0x40000000 ∧ wBar.barAddr 0 .pf 0xFFFFFFFC 8 = none ∧ wBar.barAddr 0 (.vf 0) 0 2048 = some 0x40000000 ∧
    wBar.barAddr 0 (.vf 0) 4 2048 = none ∧
    (∀ e ∈ pieces 0x40000FFC 8, wBar.fencedPlace (placeOf (0x40000FFC + e.1)) = false ∧ (placeOf (0x40000FFC + e.1)).stored = true ∧
      wBar.mem.opsOn ((0x40000FFC + e.1) / 4096) = [] ∧ wBar.failedStack (placeOf (0x40000FFC + e.1)) = false) ∧
    wBar.ethUp 0 = true ∧ wUp.ethUp 0 = false ∧ (wBar.host.regions.find? fun g => g.key == 9).isSome = true ∧
    (wBar.host.regions.all fun x => x.holds 0x1FF000 1 && !x.holds 0x200000 1 && !x.holds 0x1FF001 1 && !x.holds 0 0) = true ∧
    (placeOf (0x40000000 + 0x1FF000)).stored = true ∧ wBar.resets = [] ∧
    wBar.accepts .mgmtCore (rCtxStat 0) = true ∧ wBar.fld (rCtxStat 0) 60 3 = 0 ∧ (wBar.setReg (rCtxStat 0) 0x9000000000000000).rbit (rCtxStat 0) 63 = true ∧
    (wBar.setReg (rCtxStat 0) 0x9000000000000000).fld (rCtxStat 0) 60 3 ≠ 0 := by decide +kernel

def wAppOp (d : Nat) : PocOp := { wOp 0 false wPart with dom := d }
theorem witness_Kotan :
    wHost0.appRuns 0 = true ∧ (wHost0.setFld rMgtBoot 60 4 1).appRuns 0 = false ∧
    (wHost0.setReg (rSgCfg 5) 0x8000000000000000).rbit (rSgCfg 5) 63 = true ∧ wHost0.rbit (rSgCfg 5) 63 = false ∧ wHost0.mem.ops = [] ∧
    ((wHost0.setFld (rRingCfg 0) 60 2 2).setRBit (rRingCfg 0) 62 false).doorOk .control 0 4 = true ∧ wHost0.doorOk .control 0 4 = false ∧
    (let s := { wHost0 with mem := { wHost0.mem with ops := [wAppOp (domPartition 0)] } }
     ¬ ∀ o ∈ s.mem.ops, o.dom = domPartition 0 → inScope 3 ⟨0, 0, 0⟩ (placeOf (o.tile * 4096)) = false) ∧
    tileAt 0x40000000 = true ∧ tileAt 0x40000008 = false ∧ (∀ x ∈ [0x40000000, 0x40000008, 0x40000FFC], (placeOf x).stored = true ∧
      wHost0.fencedPlace (placeOf x) = false ∧ wHost0.failedStack (placeOf x) = false ∧ wHost0.mem.opsOn (x / 4096) = []) ∧
    wHost0.mem.wholeOpen 0x40000 = false := by decide +kernel

/-! ## Power and bring-up -/

def wPower (now : Nat) : State := { wUp with now := now }
def wInputs : GovInputs := ⟨900, 500, 800, 100000, 100000, 0, [(wc, 130)], [((0, 0), 130)], 0, 0, 0, [], []⟩
/-- An envelope commit is due: heat slots of 10 ms, open 5 ms from the start. -/
def wSlots : Envelope := ⟨0x0FA00226000003E8, 0x0190019000000000, 0x8000000A00000500, 0⟩
def wGov (g : Gov) (now : Nat) (ftc : Word) : State := { wUp with sys := { wUp.sys with gov := g }, now := now, ftc := ftc }
theorem witness_EnvelopeAndGovernor :
    (wUp.accepts .i3c rPwrEnvCtl = true ∧ wUp.accepts .fabricMgr rPwrEnvCtl = true ∧ wUp.accepts .mgmtCore rPwrEnvCtl = true ∧
      wUp.accepts (.pf 0) rPwrEnvCtl = false) ∧
    (bit 0x8000000000000000 59 = false ∧ bit 0x8000000000000000 63 = true ∧ bit 0x0800022600000000 59 = true ∧ bit 0x0800022600000000 63 = false) ∧
    EnvelopeOk wUp.staged ∧ wUp.rbit rPwrAlert 0 = false ∧ ¬ EnvelopeOk (wUp.setReg rPwrEnvLim 0).staged ∧
    (let s := (wUp.setRBit rPwrAlert 0 true).setFld rPwrEnvRamp 48 16 500
     s.rbit rPwrAlert 0 = true ∧ (s.sys.gov.next.getD s.sys.gov.env).up < s.staged.up ∧ EnvelopeOk s.staged) ∧
    ((wUp.setFld rPwrStat 0 16 600).fld rPwrStat 0 16 * 10000 > fieldN 0x0800022600000000 32 16 * 10000) ∧
    (∀ e ∈ [some wSlots, none], ∀ f ∈ ([0, 0x400000, 0x700000] : List Nat),
      let s := wGov { wUp.sys.gov with next := e } 100000 (BitVec.ofNat 64 f)
      s.governs = true ∧ s.sys.gov.stepAt + 100000 ≤ s.now) ∧
    (wGov wUp.sys.gov 99999 0).now < (wGov wUp.sys.gov 99999 0).sys.gov.stepAt + 100000 ∧
    (fieldN wSlots.hoist 32 24 = 10 ∧ wSlots.len = 5 ∧ wSlots.slots = true ∧ 0 % (wSlots.period * 1000000) < wSlots.len * 1000000 ∧
      ¬ 0x700000 % (wSlots.period * 1000000) < wSlots.len * 1000000) ∧
    (wUp.setRBit rPwrEnvCtl 59 true).rbit rPwrEnvCtl 59 = true ∧ wUp.fld (rPwrRail 0) 0 4 ≠ 3 ∧ ¬ wUp.setpoint 0 < 605 ∧
    (hottest wInputs.corePred = some (wc, 130) ∧ wUp.throtT < 130 ∧ wInputs.hbmPred = [((0, 0), 130)] ∧ wUp.hbmT < 130 ∧
      mget (fun _ => 0) (wUp.part 0).hbmCut 0 ≤ fullRate ∧ hottest [] = none) := by
  refine ⟨by decide +kernel, by decide +kernel, by unfold EnvelopeOk; decide +kernel, by decide +kernel, by unfold EnvelopeOk; decide +kernel,
    by unfold EnvelopeOk; decide +kernel, by decide +kernel, by decide +kernel, by decide +kernel, by decide +kernel, by decide +kernel,
    by decide +kernel, by decide +kernel, by decide +kernel⟩

def wCool (t : Option Nat) (now : Nat) : State := wGov { wUp.sys.gov with coolAt := t } now 0
theorem witness_Sensors :
    (wGov wUp.sys.gov 1000000 0).governs = true ∧ (wGov wUp.sys.gov 1000000 0).sys.gov.relAt + 1000000 ≤ 1000000 ∧
    (wInputs.corePred.map Prod.fst).Nodup ∧ fieldN ({ wCore with beatLim := 2290 } : Core).beatLim 0 12 ≠ 0 ∧ 100 + 2 < wUp.throtT ∧
    wUp.phase ≠ phPor ∧ wUp.sys.gov.avsAt + 100000 ≤ 100000 ∧ wUp.fld (rPwrRail 3) 0 4 ≠ 3 ∧
    (wUp.setFld (rPwrRail 3) 0 4 3).fld (rPwrRail 3) 0 4 = 3 ∧ wUp.accepts .i3c rPwrHb = true ∧ wUp.accepts .mgmtCore rThmCool = true ∧
    wUp.phase = phReady ∧ wUp.sys.gov.hbAt + 2000000000 ≤ (wPower 2000000000).now ∧ (wPower 1999999999).now < wUp.sys.gov.hbAt + 2000000000 ∧
    1000 < (wCool none 0).coolAge ∧ 1000 < (wCool (some 0) 1001000000).coolAge ∧ (wCool (some 0) 1000000000).coolAge ≤ 1000 ∧
    (let g := { wUp.sys.gov with low := [(7, 1)] }
     mget (fun _ => 0) g.low 7 ≠ 0 ∧ mget (fun _ => 0) g.low 7 - 1 + 50000000 ≤ (wGov g 50000000 0).now ∧ mget (fun _ => 0) g.low 8 = 0) := by
  decide +kernel
theorem witness_PowerStops :
    wUp.sys.pins.shut = false ∧ wUp.phase ≠ phPor ∧ wUp.sys.pins.isolated = false ∧ (∀ r : Fin 12, r.val ∉ wUp.sys.boot.lost) ∧
    (∀ r : Fin 12, ∃ k, k < 11 ∧ k ≠ r.val ∧ k ∉ wUp.sys.boot.lost) ∧ wUp.phase = phReady ∧ (wUp.setFld rMgtBoot 60 4 3).phase ≠ phReady ∧
    (let s := { wUp with sys := { wUp.sys with boot := { wUp.sys.boot with lost := [3] } } }
     (3 : Fin 12).val ∈ s.sys.boot.lost ∧ (4 : Fin 12).val ∉ s.sys.boot.lost ∧ 5 ∉ s.sys.boot.lost) := by
  refine ⟨by decide +kernel, by decide +kernel, by decide +kernel, by decide +kernel, fun r => ?_, by decide +kernel, by decide +kernel, by decide +kernel⟩
  by_cases h : r.val = 0
  · exact ⟨1, by decide, by omega, by decide +kernel⟩
  · exact ⟨0, by decide, by omega, by decide +kernel⟩

/-- A state of bring-up in phase `ph`. -/
def wBoot (ph : Nat) (f : Boot → Boot) (now : Nat) : State :=
  let s := wUp.setReg rMgtBoot (setField 0 60 4 ph)
  { s with sys := { s.sys with boot := f s.sys.boot }, now := now }
/-- CORES, with partition 0 in service and all its clusters known good. -/
def wCores : State :=
  let s := wBoot 5 (fun b => { b with known := List.range 12 }) 5000000
  ((s.setRBit rMgtBoot 52 true).setRBit rMgtBoot 51 true).setMgmtSt s.activeB mcCompare
theorem witness_BringUp :
    (let s := wBoot 0 id 10000000
     s.phase = 0 ∧ s.sys.boot.lost = [] ∧ s.sys.pins.reset = false ∧ s.sys.pins.isolate = false ∧ s.sys.boot.since + 10000000 ≤ s.now) ∧
    (∀ ph ∈ [1, 2, 3, 4], (wBoot ph id 0).goesOn ph = true) ∧ (wBoot 0 id 9999999).now < (wBoot 0 id 9999999).sys.boot.since + 10000000 ∧
    (let s := wBoot 1 (fun b => { b with verified := true }) 0
     s.goesOn 1 = true ∧ s.sys.boot.verified = true ∧ s.fld rMgtBoot 56 4 = 0 ∧ s.resets = [] ∧ s.lifeCycle ≠ 7 ∧ (s.setFld rMgtLc 61 3 7).lifeCycle = 7) ∧
    (wBoot 1 id 0).sys.boot.verified = false ∧ (wBoot 2 id 0).sys.boot.wait = 0 ∧ (wBoot 2 (fun b => { b with wait := 3 }) 0).sys.boot.wait = 3 ∧
    (wBoot 3 id 0).goesOn 2 = false ∧ (wBoot 3 id 0).sys.boot.inited = false ∧ (wBoot 3 (fun b => { b with inited := true, bad := [2] }) 0).goesOn 3 = true ∧
    ((wBoot 4 id 0).setRBit rMgtBoot 51 true).rbit rMgtBoot 51 = true ∧ (wBoot 4 id 0).rbit rMgtBoot 51 = false ∧ (wBoot 4 id 0).extents ≠ ⟨1, 1, 1⟩ ∧
    (let s := wBoot 5 id 0
     let m := s.reg (rCmap 0 0)
     s.runsDue 0 = true ∧ clusterIdx 0 0 ∉ s.sys.boot.known ∧ fieldN m 12 4 = 3 ∧ bit m 35 = false ∧ fieldN m 44 4 = 8 ∧
       ∀ j : Fin 8, j ≠ 3 → fieldN m (4 * j.val) 4 ≠ 3) ∧
    wCores.mayBeReady = true ∧ (wBoot 5 id 0).mayBeReady = false ∧ wUp.sys.pins.reset = false ∧
    ({ wUp with sys := { wUp.sys with pins := { wUp.sys.pins with reset := true } } }.sys.pins.reset = true) := by
  refine ⟨by decide +kernel, by decide +kernel, by decide +kernel, by decide +kernel, by decide +kernel, by decide +kernel, by decide +kernel,
    by decide +kernel, by decide +kernel, by decide +kernel, by decide +kernel, by decide +kernel, by decide +kernel, by decide +kernel, by decide +kernel,
    by decide +kernel, by decide +kernel, by decide +kernel⟩

/-- Whether a signature is accepted is not known here (`Config.verifyEc`, `Config.verifyPq`): the clauses about a container or a token
that passes rest on that. -/
theorem witness_Configuration :
    wUp.accepts .mgmtCore rMgtStageCtl = true ∧ wUp.phase ≠ 7 ∧
    fieldN 0x100003 0 2 = 3 ∧ fieldN 0x100001 0 2 = 1 ∧ fieldN 0x100001 16 16 = 16 ∧ ¬ (1 ≤ fieldN 1 16 16) ∧ ¬ (fieldN 0x40010002 16 16 ≤ 16384) ∧
    leAt (wUp.stageBytes 16) 0xC 4 ≠ 16 ∧ leAt ((wUp.setReg (rMgtStage 1) 0x1000000000).stageBytes 16) 0xC 4 = 16 ∧
    (wUp.setReg (rMgtStage 1) 0x1000000000).checkConfig ((wUp.setReg (rMgtStage 1) 0x1000000000).stageBytes 16) = caCheck ∧
    fieldN 0x100002 16 16 ≠ tokenLen ∧ fieldN 0x12E00002 16 16 = tokenLen ∧ tokenOk (wUp.stageBytes 16) = false ∧
    (transitionOk 2 3 = true ∧ transitionOk 3 2 = false) ∧ wUp.launches = [] ∧ wUp.colls = [] ∧ wUp.lifeCycle ≠ 3 ∧ 1 < wUp.fld rMgtLic 62 2 := by
  refine ⟨by decide +kernel, by decide +kernel, by decide +kernel, by decide +kernel, by decide +kernel, by decide +kernel, by decide +kernel,
    by decide +kernel, by decide +kernel, by decide +kernel, by decide +kernel, by decide +kernel, by decide +kernel, by decide +kernel, by decide +kernel,
    by decide +kernel, by decide +kernel, by decide +kernel⟩

/-! ## Resets -/

/-- The domains whose resets the tests take up, and a state in which one is reset, at a step. -/
def wDoms : List Domain := [.context 0, .core wc, .cluster 0 0, .partEngine 0 1, .dieEngine 0 0, .partition 0, .package]
def wJob (d : Domain) (step : Nat) : ResetJob := ⟨d, step, false, false, false, 0, 0, false⟩
def wReset (j : ResetJob) (now : Nat) : State := { wUp with resets := [j], now := now }
theorem witness_ResetSteps :
    (wDoms.all fun d =>
      decide ((wReset (wJob d 3) 0).jobOf d = some (wJob d 3)) && !(wReset (wJob d 3) 0).outstanding (wJob d 3) &&
        decide ((wReset (wJob d 6) 0).jobOf d = some (wJob d 6)) && decide ((wReset (wJob d 7) 0).jobOf d = some (wJob d 7)) &&
        decide (0 + 0 + domBudget d / 2 ≤ (wReset (wJob d 3) (domBudget d / 2)).now) && decide (domBudget d ≤ (wReset (wJob d 3) (domBudget d)).now) &&
        ((wReset (wJob d 7) 0).mayRestore d == (d != .partition 0))) = true ∧
    ({ wReset (wJob (.partition 0) 7) 0 with sys := { wUp.sys with boot := { wUp.sys.boot with known := List.range 12 } } }.mayRestore (.partition 0) = true) ∧
    (let j := { wJob (.partition 0) 6 with hold := true }
     (wReset j 0).jobOf (.partition 0) = some j ∧ j.held = false) ∧
    (let s := { wReset (wJob (.context 0) 3) 0 with fab := { wUp.fab with src := [{ wReq 0 3 0 with dom := domContext 0 }] } }
     s.outstanding (wJob (.context 0) 3) = true) ∧
    ({ wReset (wJob (.context 0) 7) 0 with host := { wUp.host with cmds := [wCmd 5 false] } }.mayRestore (.context 0) = false) := by
  refine ⟨by decide +kernel, by decide +kernel, by decide +kernel, by decide +kernel, by decide +kernel⟩

def rstV (kind target : Nat) : Word := BitVec.ofNat 64 (2 ^ 63 + kind * 2 ^ 60 + target)
theorem witness_ResetRequests :
    wUp.accepts .mgmtCore (rRstCtl 0) = true ∧ (wUp.setFld rMgtBoot 60 4 0).accepts .mgmtCore (rRstCtl 0) = false ∧ wUp.rbit (rRstStat 0) 63 = false ∧
    ([(1, 0), (2, 8), (3, 0)].all fun e => let v := rstV e.1 e.2
      bit v 63 && !bit v 57 && fieldN v 60 3 == e.1 && !bit v 59 && !bit v 58 && (unpackCore (field v 0 9)).isSome) = true ∧
    unpackCore (field (rstV 1 0) 0 9) = some wc ∧ (unpackCore (field (rstV 1 128) 0 9)).any (fun c => c.p != 0) = true ∧ wUp.resets = [] ∧
    (let j := { wJob (.partition 0) 6 with hold := true, held := true }
     let s := ((wReset j 0).setRBit (rRstStat 0) 63 true).setReg (rRstCtl 0) 0x3400000000000000
     s.accepts .mgmtCore (rRstCtl 0) = true ∧ s.rbit (rRstStat 0) 63 = true ∧ s.heldPart 0 = true ∧ s.jobOf (.partition 0) = some j ∧
       bit 0x3000000000000000 63 = false ∧ bit 0x3000000000000000 58 = false ∧ s.rbit (rRstCtl 0) 58 = true ∧
       fieldN 0x3000000000000000 60 3 = s.fld (rRstCtl 0) 60 3 ∧ fieldN 0x3000000000000000 0 9 = s.fld (rRstCtl 0) 0 9 ∧
       bit 0x3000000000000000 59 = s.rbit (rRstCtl 0) 59 ∧ bit 0x3000000000000000 57 = s.rbit (rRstCtl 0) 57 ∧ (s.part 0).fenced = false ∧
       (s.part 0).railLost = false) ∧
    wUp.accepts .mgmtCore rMgtRst = true ∧ (wUp.part 0).linkDown = [] ∧
    (({ wUp with parts := [(0, { wUp.part 0 with linkDown := [true] })] }).part 0).linkDown = [!false] := by
  refine ⟨by decide +kernel, by decide +kernel, by decide +kernel, by decide +kernel, by decide +kernel, by decide +kernel, by decide +kernel,
    by decide +kernel, by decide +kernel, by decide +kernel, by decide +kernel⟩

/-- A unit's acknowledgement, and a register with sticky bits. -/
theorem witness_StickyFields : (∃ t, exec (.resetAck .package) (wReset (wJob .package 6) 0) = .next t) ∧
    ∃ r, regRow rObsPtc = some r :=
  ⟨⟨_, rfl⟩, Option.isSome_iff_exists.mp (by decide +kernel)⟩

/-! ## The management pair, events, self-test, counters and updates -/

def wPair (act b : Bool) (sa sb : Nat) : State :=
  let s := if act then (wUp.setMgmtSt false sb).setMgmtSt true sa else (wUp.setMgmtSt false sa).setMgmtSt true sb
  if b then s.setFld rMgtPairCnt 48 16 1 else s
def wCopy (body : Word) (ok : Bool) : PairCopy := ⟨body, 7, 9, ok⟩
theorem witness_ManagementPair :
    (let s := wPair wUp.activeB false 1 1
     s.mgmtSt false = 1 ∧ s.mgmtSt true = 1 ∧ ¬ (s.fld rMgtPairCnt 48 16 ≠ 0 ∧ s.fld rObsPtc 0 32 ≤ s.fld rMgtPair 12 32 + 600) ∧
       s.mgmtSt (!s.activeB) = 1) ∧
    (let s := wPair wUp.activeB true 1 1
     s.fld rMgtPairCnt 48 16 ≠ 0 ∧ s.fld rObsPtc 0 32 ≤ s.fld rMgtPair 12 32 + 600) ∧
    ((wCopy 1 true).body ≠ (wCopy 2 true).body ∧ (wCopy 1 true).seq = (wCopy 2 false).seq) ∧
    (∀ sb ∈ [0, 4], let s := wPair wUp.activeB false 1 sb; s.mgmtSt s.activeB = 1 ∧ s.mgmtSt (!s.activeB) = sb) ∧
    (∀ t ∈ [2000000, 2000001], let s := wPair wUp.activeB false 1 3
      let s := { s with sys := { s.sys with pair := { s.sys.pair with held := some (wCopy 1 true), reloadAt := 0 } }, now := t }
      s.mgmtSt s.activeB = 1 ∧ s.mgmtSt (!s.activeB) = 3 ∧ s.sys.pair.held = some (wCopy 1 true) ∧
        (s.now ≤ s.sys.pair.reloadAt + 2000000 ↔ t = 2000000)) ∧
    wUp.accepts .mgmtCore rMgtPair = true ∧ (bit 1 0 = true ∧ bit 1 1 = false ∧ bit 2 0 = false ∧ bit 2 1 = true) ∧
    (let s := (wPair wUp.activeB false 1 2).setRBit rMgtPair 56 true
     s.mgmtSt (!s.activeB) = 2 ∧ s.rbit rMgtPair 56 = true) := by
  refine ⟨by decide +kernel, by decide +kernel, by decide +kernel, by decide +kernel, by decide +kernel, by decide +kernel, by decide +kernel, by decide +kernel⟩

def wDump (u : Nat) : Dump := ⟨1, some 0, 0x40000000, false, u, [], 0, 0, 5, false, 0⟩
def wDumping (u now : Nat) : State := { wUp with sys := { wUp.sys with dump := some (wDump u) }, now := now }
def wNote (sent : Nat) : Notice := ⟨3, 9, sent, 5⟩
def wNoted (sent now : Nat) : State := { wUp with sys := { wUp.sys with notices := [wNote sent] }, now := now }
theorem witness_DumpsAndNotices :
    wUp.sys.dump = none ∧ (wDumping 0 5).sys.dump = some (wDump 0) ∧ (wDump 0).unit + 1 < dumpUnits (wDump 0).part ∧
    (wDump 0).unitAt + 1000000 ≤ (wDumping 0 1000005).now ∧ (wDumping 0 1000004).now < (wDump 0).unitAt + 1000000 ∧
    (wDump 140).unit + 1 = dumpUnits (wDump 140).part ∧ (wDump 0).tiles.length + (dumpUnits (wDump 0).part - (wDump 0).unit) < dumpTiles ∧
    (wUp.setReg (rRstWfd 0) 0).rbit (rRstWfd 0) 63 = false ∧ (wUp.rbit (rRstWfd 0) 63 = true ∧ wUp.rbit (rRstWfd 0) 62 = true ∧ wUp.resets = []) ∧
    (wUp.setRBit (rRstWfd 0) 62 false).rbit (rRstWfd 0) 62 = false ∧
    ((ascending (([5, 3, 5] : List (BitVec 10)).map BitVec.toNat)).length = 2 ∧ (ascending (([5] : List (BitVec 10)).map BitVec.toNat)).length < 2) ∧
    ([(1, 1000005), (1, 1000004), (100, 1000005), (101, 1000005)].all fun e =>
      decide (((wNoted e.1 e.2).sys.notices.find? fun x => x.seq == 3) = some (wNote e.1))) = true ∧
    ((wNoted 1 0).sys.notices.map Notice.seq).Nodup ∧ (wNote 1).last + 1000000 ≤ (wNoted 1 1000005).now ∧
    wUp.accepts .mgmtCore rMgtPeerFail = true ∧ wUp.accepts .fabricMgr rMgtPeerFail = true ∧ bit 0x8000000000000000 63 = true := by
  refine ⟨by decide +kernel, by decide +kernel, by decide +kernel, by decide +kernel, by decide +kernel, by decide +kernel, by decide +kernel,
    by decide +kernel, by decide +kernel, by decide +kernel, by decide +kernel, by decide +kernel, by decide +kernel, by decide +kernel,
    by decide +kernel, by decide +kernel, by decide +kernel⟩

/-- A slice as it waits, and one that began at 5. -/
def wSlice (code tg : Nat) (force : Bool) (start : Option (Word × Nat)) : Slice := ⟨code, tg, force, none, false, 0, 0, 0, 0, start, false⟩
def wQueue (l : List Slice) (now : Nat) : State := { wUp with sys := { wUp.sys with bst := { wUp.sys.bst with queue := l } }, now := now }
def wSliceRes (ok : Bool) : SliceResult := ⟨ok, 90, 80, 1, 3⟩
theorem witness_Slices :
    ([(1, 5), (2, 3), (3, 1), (4, 0), (5, 0), (7, 5), (8, 0)].all fun e => (wQueue [wSlice e.1 e.2 true none] 0).maySlice (wSlice e.1 e.2 true none) &&
      decide ((wQueue [wSlice e.1 e.2 true none] 0).sys.bst.queue[0]? = some (wSlice e.1 e.2 true none))) = true ∧
    (let x := wSlice 1 5 true (some (0, 5))
     (wQueue [x] 1600005).sys.bst.queue[0]? = some x ∧ x.start = some (0, 5) ∧ 5 + sliceDuration 1 ≤ (wQueue [x] 1600005).now ∧
       (wQueue [x] 1600004).now < 5 + sliceDuration 1 ∧ (wQueue [x] 0).maySlice x = false) ∧
    (wQueue [wSlice 1 5 true (some (0, 5)), wSlice 1 5 true none] 0).maySlice (wSlice 1 5 true none) = false ∧
    beyondSpares (wSliceRes false) = true ∧
    (let x := wSlice 1 5 false none
     x.start = none ∧ x.dsp = false ∧ x.reqAt + wUp.fld rBstSched 16 16 * 1000000000 ≤ (wQueue [x] 30000000000).now ∧
       (wQueue [x] 29999999999).now < x.reqAt + wUp.fld rBstSched 16 16 * 1000000000) := by
  refine ⟨by decide +kernel, by decide +kernel, by decide +kernel, by decide +kernel, by decide +kernel⟩

/-- Core 0 of partition 0 is traced in both modes. -/
def wTraced : State := { wUp.setFld rTrcCtl 0 1 1 with sys := { wUp.sys with trace := [(0, List.replicate 60 0)] }, now := 1000000000 }
theorem witness_CountersAndTrace :
    wUp.accepts .mgmtCore rObsLatch = true ∧ wUp.fld rObsLatch 0 32 = 0 ∧
    (let s := (wUp.setFld rObsLatch 0 32 1).setReg rObsLatchT wUp.ftc
     s.fld rObsLatch 0 32 ≠ 0 ∧ s.reg rObsLatchT = s.ftc) ∧
    (wTraced.sys.ptcAt + 1000000000 ≤ wTraced.now ∧ 11 ∉ wTraced.sys.boot.lost) ∧ wUp.now < wUp.sys.ptcAt + 1000000000 ∧
    wUp.fld rObsPtc 0 32 < wUp.sys.invPtc.toNat + 60 ∧ wUp.sys.invPtc.toNat + 60 ≤ (wUp.setReg rObsPtc 60).fld rObsPtc 0 32 ∧
    (wTraced.traces ⟨0, 0⟩ 3 = true ∧ (mget (fun _ => []) wTraced.sys.trace 0).length = 60 ∧ wUp.rbit rTrcCtl 0 = false) ∧
    ((wTraced.fld (rTrcPtr 0) 0 32) + 64 < wTraced.traceShare 0) ∧
    (let s := wTraced.setFld (rTrcPtr 0) 0 32 (wTraced.traceShare 0 - 64)
     s.traceShare 0 ≤ s.fld (rTrcPtr 0) 0 32 + 64 ∧ s.rbit rTrcCtl 63 = false) ∧
    (¬ (wUp.fld rMgtUpdStat 60 4 = 4 ∨ wUp.fld rMgtUpdStat 60 4 = 5) ∧ wUp.rbit rBstSched 63 = true ∧ wUp.phase = 6 ∧ periodicPair 0 = some (1, 0) ∧
      wUp.queued Slice.own < 8 ∧ wUp.queued (fun _ => true) < 64 ∧ wUp.sliceAbsent 1 0 = false ∧ (wUp.setReg rBstSched 0).rbit rBstSched 63 = false) ∧
    8 ≤ (wQueue (List.replicate 8 (wSlice 1 5 false none)) 0).queued Slice.own := by
  refine ⟨by decide +kernel, by decide +kernel, by decide +kernel, by decide +kernel, by decide +kernel, by decide +kernel, by decide +kernel,
    by decide +kernel, by decide +kernel, by decide +kernel, by decide +kernel, by decide +kernel⟩

/-- A tile of empty memory as an engine reads it. -/
theorem engine_empty (s s1 : State) (t : Nat) (hp : placeOf (t * 4096) = .hbm 0 0 ∨ placeOf (t * 4096) = .hbm 0 1)
    (hs : ((s.landSome (t * 4096 / 4096)).countRows (placeOf (t * 4096)) false 64).countUncorr (placeOf (t * 4096)) = s1)
    (h1 : s1.mem.serve (t * 4096 / 4096) = ⟨0, zeroRec⟩) (h2 : s.fencedPlace (placeOf (t * 4096)) = false)
    (h3 : s1.failedStack (placeOf (t * 4096)) = false) : s.engineTile (t * 4096) 0 fmtUntyped = (s1, .ok ⟨0, zeroRec⟩) := by
  unfold State.engineTile
  rcases hp with hp | hp <;> rw [hp] at hs h2 h3 ⊢ <;> simp only [h2, hs, h1, h3, Bool.false_eq_true, if_false]
theorem serve_empty1 (m : Mem) (h : m.pkg = []) (h' : m.tcr = []) : m.serve 0x40001 = ⟨0, zeroRec⟩ := by
  have hp : m.plainRec 0x40001 = zeroRec := by
    have : m.recAt 0x40001 = restRec 0x40001 := by simp [Mem.recAt, h']
    simp only [Mem.plainRec, this]
    have hc : termed (0x40001 * 4096) (restRec 0x40001).code = zeroRec.code := by decide +kernel
    rw [hc]; rfl
  simp only [Mem.serve, Mem.tileData, num_empty m h, hp, vetted, zero_sum, if_true, summed]
  rfl
theorem good_zero : classifyTile ⟨0, zeroRec⟩ = .good := by rw [classifyTile]; exact zero_good _ _ (by simp)
def wUpd (v : Word) : State :=
  withRegs wUp [(rEpwBase 0, 0x8000000040000000), (rEpwAttr 0, 0x00C0000000000001), (rMgtUpdSrc, 0x40000000), (rMgtUpdStat, v), (rMgtUpdAt, 50)]
def wLoaded : State := (wUpd 0).loading 0x8000000000000000
def wHead1 : State := ((wLoaded.landSome 0x40000).countRows (placeOf 0x40000000) false 64).countUncorr (placeOf 0x40000000)
def wHead2 : State := ((wHead1.landSome 0x40001).countRows (placeOf 0x40001000) false 64).countUncorr (placeOf 0x40001000)
theorem head1 : wLoaded.engineTile 0x40000000 0 fmtUntyped = (wHead1, .ok ⟨0, zeroRec⟩) :=
  engine_empty wLoaded wHead1 0x40000 (by decide +kernel) (by unfold wHead1; rw [show 0x40000 * 4096 = 0x40000000 by decide, show 0x40000000 / 4096 = 0x40000 by decide])
    (serve_empty _ (by decide +kernel) (by decide +kernel)) (by decide +kernel) (by decide +kernel)
theorem head2 : wHead1.engineTile 0x40001000 0 fmtUntyped = (wHead2, .ok ⟨0, zeroRec⟩) :=
  engine_empty wHead1 wHead2 0x40001 (by decide +kernel) (by unfold wHead2; rw [show 0x40001 * 4096 = 0x40001000 by decide, show 0x40001000 / 4096 = 0x40001 by decide])
    (serve_empty1 _ (by decide +kernel) (by decide +kernel)) (by decide +kernel) (by decide +kernel)
theorem goodTiles_step (s s1 s2 : State) (pa n : Nat) (t : TileImg) (l : List Byte) (h : s.engineTile pa 0 fmtUntyped = (s1, .ok t))
    (hg : classifyTile t = .good) (h2 : s1.goodTiles (pa + 4096) n = (s2, some l)) :
    s.goodTiles pa (n + 1) = (s2, some (bytesOf 32768 t.data 4096 ++ l)) := by
  rw [State.goodTiles, h]; simp only [hg, h2, beq_self_eq_true, if_true]
theorem goodTiles_header : wLoaded.goodTiles 0x40000000 2 = (wHead2, some (bytesOf 32768 0 4096 ++ (bytesOf 32768 0 4096 ++ []))) :=
  goodTiles_step _ _ _ _ _ ⟨0, zeroRec⟩ _ head1 good_zero (goodTiles_step _ _ _ _ _ ⟨0, zeroRec⟩ _ head2 good_zero rfl)

def wParts (v : Word) (l : List PartEnt) (ftc : Word) : State :=
  let s := wUpd v
  { s with sys := { s.sys with upd := { s.sys.upd with parts := l } }, ftc := ftc }
def usStagingV : Word := 0x2000000000000000
def usStagedV : Word := 0x3000000000000000
def usApplyingV : Word := 0x4000000000000000
def usRollingV : Word := 0x5000000000000000
def wApplied (u : Upd) (v : Word) (now : Nat) : State :=
  let s := ((wUpd v).setMgmtSt false mcCompare).setMgmtSt true mcCompare
  { s with sys := { s.sys with upd := u }, now := now }
theorem witness_Updates :
    wUp.accepts .mgmtCore rMgtUpdCtl = true ∧ (wUpd 0).updState = 0 ∧ wUp.inWindow0 0x40000000 0x2000 = false ∧
    (wUpd 0).inWindow0 ((wUpd 0).reg rMgtUpdSrc).toNat 0x2000 = true ∧ ((wUpd 0).reg rMgtUpdSrc).toNat = 0x40000000 ∧
    headerFormOk (bytesOf 32768 0 4096 ++ (bytesOf 32768 0 4096 ++ [])) = false ∧
    (wUpd 0).headerFails (bytesOf 32768 0 4096 ++ (bytesOf 32768 0 4096 ++ [])) ≠ 0 ∧
    ((wParts usStagedV [] 0).updState = 3 ∧ (wParts usStagingV [] 0).updState = 2 ∧ (wParts usApplyingV [] 0).updState = 4 ∧
      (wParts usRollingV [] 0).updState = 5) ∧
    ((wParts usStagedV [] 49).ftc.toNat < ((wParts usStagedV [] 49).reg rMgtUpdAt).toNat ∧
      ((wParts usStagedV [] 50).reg rMgtUpdAt).toNat ≤ (wParts usStagedV [] 50).ftc.toNat) ∧
    ((wParts usStagingV [] 0).stageParts [1, 2, 3, 4, 5, 6, 7]).2 = 0 ∧
    ((wParts usStagingV [⟨1, 0, 0, 0, 0⟩] 0).stageParts [1, 2, 3, 4, 5, 6, 7]).2 = 8 ∧
    ((wParts usStagedV [] 50).sys.upd.minTier ≤ (wParts usStagedV [] 50).tier) ∧
    (let s := wApplied { wUp.sys.upd with minTier := 3 } usStagedV 0
     (s.setFld rMgtLic 62 2 2).tier < s.sys.upd.minTier) ∧
    (let s := wApplied wUp.sys.upd usApplyingV 0
     s.checkDue 0 0 true = true ∧ s.checkDue 2 0 true = true ∧ s.checkDue 0 0 false = true ∧ s.checkDue 1 0 true = false ∧
       (s.sys.upd.check 0 0).passed = false) ∧
    ({ wUp.sys.upd with checked := 0b1110100#7, chk2 := 15, chk4 := 15 }.check 0 0).passed = true ∧
    (let s := { wUpd usApplyingV with now := 300000000000 }
     s.pairOn = false ∧ s.sys.upd.actAt + s.fld rMgtUpdCfg 0 16 * 1000000000 ≤ s.now) ∧
    (let s := wApplied { wUp.sys.upd with onPart := 15, cause := 13, halves := List.range 72 } usRollingV 0
     s.updState = 5 ∧ s.pairOn = true ∧ s.sys.upd.onPart = 15 ∧ s.halvesOn = true ∧ s.sys.upd.cause < 256) := by
  refine ⟨by decide +kernel, by decide +kernel, by decide +kernel, by decide +kernel, by decide +kernel, by decide +kernel, by decide +kernel, by decide +kernel,
    by decide +kernel, by decide +kernel, by decide +kernel, by decide +kernel, by decide +kernel, by decide +kernel, by decide +kernel, by decide +kernel,
    by decide +kernel⟩

/-! ## Control space and invariants -/

theorem witness_ControlSpace :
    (∀ a ∈ plainRegs, canonAddr a = a ∧ (regRow a).isSome = true) ∧ ([rMgtStage 0, rMgtUpdSrc, rTrcCtl, rCtxQuota 0, rEptData 0].all (wUp.accepts .mgmtCore)) = true ∧
    (boundedFields.all fun e => wUp.accepts .mgmtCore e.1) = true ∧ (fieldN 0x6900000000000000 56 8 = 105 ∧ fieldN 0x6A00000000000000 56 8 = 106) ∧
    regRow (canonAddr 0xFF8) = none ∧ canonAddr 0xFF8 ≠ rObsFtc ∧ (wUp.setFld rMgtBoot 60 4 0).accepts .mgmtCore (canonAddr 0x100) = false ∧
    wUp.accepts .mgmtCore rMgtUpdAt = true ∧ wUp.updState = 0 ∧ (wUpd usStagingV).updState ≠ 0 ∧ wUp.accepts .mgmtCore (rTrcBuf 0) = true ∧
    wUp.fld rTrcCtl 0 8 = 0 ∧ (wUp.setFld rTrcCtl 0 8 1).fld rTrcCtl 0 8 ≠ 0 ∧ wUp.accepts .mgmtCore 0xF011800 = true ∧
    ({ wUp with cores := [(0, { wCore with st := .stopped })] }.core wc).st = .stopped ∧ (wUp.core wc).st ≠ .stopped ∧ wUp.phase = 6 ∧
    (let p := wIn 8
     let s := { wUp with fab := { wUp.fab with ept := [(2, entry 0 1), (8, entry 0 0), (10, entry 0 0)] } }
     s.ingressStatus 0 { p with srcEp := 8, dstEp := 10 } = none ∧ s.fmEp = 8 ∧ s.lepOf 0 { p with srcEp := 8, dstEp := 10 } = 0 ∧
       s.ingressStatus 0 { p with srcEp := 2, dstEp := 10 } = none ∧ s.ingressStatus 0 { p with srcEp := 3, dstEp := 10 } = some 8) := by
  refine ⟨by decide +kernel, by decide +kernel, by decide +kernel, by decide +kernel, by decide +kernel, by decide +kernel, by decide +kernel, by decide +kernel,
    by decide +kernel, by decide +kernel, by decide +kernel, by decide +kernel, by decide +kernel, by decide +kernel, by decide +kernel, by decide +kernel,
    by decide +kernel, by decide +kernel⟩

/-- An empty queue; a queue whose command a step takes. -/
theorem witness_IdleStep : State.reset.pending = [] := rfl
def wTake : State := { State.reset with pending := [.railLoss 0 false] }
theorem witness_steps : wTake.mem.wf = true ∧ wTake.numbered ∧ wTake.groupsOk ∧ ∃ t, step wTake = .next t := by
  refine ⟨by decide +kernel, numbered_of (by decide +kernel), ?_, ⟨_, rfl⟩⟩
  exact witness_groupsOk _ (by decide +kernel)

/-! ## One step each. The expected values are worked out by hand from the rule named, or published for the algorithm. -/

/-- What is read of the state that a command leaves. -/
def after {α : Type} (r : Answer) (f : State → α) : Option α :=
  match r with
  | .next t => some (f t)
  | _ => none
def wMax : State := wAt { wCore with s := [(1, 0xFFFFFFFFFFFFFFFF), (2, 1)] }
/-- Log entry 2: a step on an empty queue is one nanosecond. -/
theorem test_idle_time : after (step State.reset) State.now = some 1 := by decide +kernel
/-- R154: sums wrap; s0 stays zero (R80). -/
theorem test_add_wraps : after (exec (.add wc wFLR) wMax) (fun t => (t.core wc).getS 5) = some 0 := by decide +kernel
theorem test_add_s0 : after (exec (.sub wc { wFLR with rd := 0 }) wMax) (fun t => (t.core wc).getS 0) = some 0 := by decide +kernel
theorem test_sra_sign : after (exec (.sra wc wFLR) wMax) (fun t => (t.core wc).getS 5) = some 0xFFFFFFFFFFFFFFFF := by decide +kernel
theorem test_shr_zero : after (exec (.shr wc wFLR) wMax) (fun t => (t.core wc).getS 5) = some 0x7FFFFFFFFFFFFFFF := by decide +kernel
/-- R154: SCMP LT, signed: -1 < 1. -/
theorem test_scmp_signed : after (exec (.scmp wc ⟨0, false, 1, 1, 2, 2⟩) wMax) (fun t => ((t.core wc).getP 1).getLsbD 0) = some true := by decide +kernel
/-- R8, Table 12.1: a write before MGMT has no effect; R8: staging words take a write whole. -/
theorem test_write_por : after (exec (.regWrite .mgmtCore 0x400 8 7) State.reset) (fun t => t.reg 0x400) = some 0 := by decide +kernel
/-- R258: a doorbell waits for a posted write of its function. -/
theorem test_doorbell_waits : (match exec (.bar2Access 0 .pf true 0x40000000 4 [1, 2, 3, 4]) wBar with
    | .next s => after (exec (.doorbell (.pf 0) 0 4) s) (fun t => (t.mem.ops.length, t.ringTail 0))
    | _ => none) = some (1, 3) := by decide +kernel
/-- R364: a doorbell moves TAIL; one of a VF of another context only counts. -/
theorem test_doorbell : after (exec (.doorbell (.pf 0) 0 4) wHost) (fun t => (t.ringTail 0, t.fld (rHstHerr 0) 32 16)) = some (4, 0) := by decide +kernel
theorem test_doorbell_other : after (exec (.doorbell (.vf 0 1) 0 4) wHost) (fun t => (t.ringTail 0, t.fld (rHstHerr 0) 32 16)) = some (3, 1) := by
  decide +kernel
/-- Table 11.4: 99, 4,999, 20,000 and 20,001 ohms. -/
theorem test_leak : [99, 4999, 20000, 20001].map (fun r => after (exec (.leakSample (BitVec.ofNat 32 r)) wUp) fun t => t.sys.gov.leak) =
    [some 3, some 1, some 0, some 2] := by decide +kernel
/-- Table 10.12: rate 6 at width 16 is a link; width 2 is none. -/
theorem test_link_up : after (exec (.pcieLinkUp 1 6 16) wUp) (fun t => t.pcieUp 1) = some true := by decide +kernel
theorem test_link_width : after (exec (.pcieLinkUp 1 6 2) wUp) (fun t => t.pcieUp 1) = some false := by decide +kernel
/-- R216: the check value of CRC-32C over the characters 1 to 9. -/
theorem test_crc32c : crc32c [0x31, 0x32, 0x33, 0x34, 0x35, 0x36, 0x37, 0x38, 0x39] = 0xE3069283 := by decide +kernel
/-- FIPS 180-4: SHA-384 of abc, its first byte the least significant. -/
theorem test_sha384 : sha384 [0x61, 0x62, 0x63] =
    0xa725c834a1ecba5823cce7a12b078680ed5bff435a608b1a63d1de0eab322c270750c69a693da0b58b5ea3453f7500cb := by decide +kernel
/-- IEEE binary32: 1.5 + 2.5 = 4, and the largest number doubled is an infinity. -/
theorem test_fadd : fadd 0x3FC00000 0x40200000 = 0x40800000 ∧ fadd 0x7F7FFFFF 0x7F7FFFFF = 0x7F800000 := by decide +kernel

end Sys2Proof.Tests
end

section
/-! Keystone accumulation depends on the contributions alone (R61): the contributions form a commutative monoid that acts on
the accumulator. -/

namespace Sys2Proof.Machine

/-! ## Contributions -/

theorem Delta.add_comm (x y : Delta) : x.add y = y.add x := by
  simp [Delta.add, Int.add_comm, Bool.or_comm]

theorem Delta.add_assoc (x y z : Delta) : (x.add y).add z = x.add (y.add z) := by
  simp [Delta.add, Int.add_assoc, Bool.or_assoc]

@[simp] theorem Delta.zero_add (x : Delta) : Delta.zero.add x = x := by
  simp [Delta.add, Delta.zero]

theorem Delta.add_left_comm (x y z : Delta) : x.add (y.add z) = y.add (x.add z) := by
  rw [← Delta.add_assoc, Delta.add_comm x y, Delta.add_assoc]

/-! ## The terms of one operation -/

/-- The sum is one over the pairs of operands: what is left over of the longer row adds nothing. -/
theorem keySum_eq_foldr (a : Int) (x y : List Operand) :
    keySum a x y = ((x.zip y).map fun p => keyTerm a p.1 p.2).foldr Delta.add .zero := by
  induction x generalizing y with
  | nil => rfl
  | cons _ _ ih =>
    cases y with
    | nil => rfl
    | cons _ _ => simp [keySum, ih]

theorem keySum_perm (a : Int) {x y u v : List Operand} (h : (x.zip y).Perm (u.zip v)) : keySum a x y = keySum a u v := by
  rw [keySum_eq_foldr, keySum_eq_foldr]
  exact (h.map _).foldr_eq' (fun p _ q _ => Delta.add_left_comm q p) _

theorem keySum_append (a : Int) (x y u v : List Operand) (h : x.length = y.length) :
    keySum a (x ++ u) (y ++ v) = (keySum a x y).add (keySum a u v) := by
  induction x generalizing y with
  | nil =>
    obtain rfl := List.length_eq_zero_iff.1 h.symm
    exact (Delta.zero_add _).symm
  | cons _ _ ih =>
    cases y with
    | nil => simp at h
    | cons _ ys => simp [keySum, ih ys (by simpa using h), Delta.add_assoc]

/-! ## Contributions of several operations -/

theorem mtab_congr {α : Type} [DecidableEq α] (d : Nat → α) {f g : Nat → α} {n lo : Nat}
    (h : ∀ k, lo ≤ k → k < lo + n → f k = g k) : mtab d f n lo = mtab d g n lo := by
  induction n generalizing lo with
  | zero => rfl
  | succ n ih =>
    have hrest : mtab d f n (lo + 1) = mtab d g n (lo + 1) := ih fun k _ _ => h k (by omega) (by omega)
    rw [mtab, mtab, hrest, h lo (by omega) (by omega)]

theorem AccElem.addDelta_addDelta (e : AccElem) (x y : Delta) : (e.addDelta x).addDelta y = e.addDelta (x.add y) := by
  simp [AccElem.addDelta, Delta.add, BitVec.ofInt_add, BitVec.add_assoc, Bool.or_assoc]

/-- The element that an operation leaves when the count reaches `count` (R60). -/
def AccElem.after (e : AccElem) (d : Delta) (count : Nat) : AccElem :=
  { e.addDelta d with sat := (e.addDelta d).sat || decide (2 ^ 40 < count) }

theorem Acc.addAll_eq (k : Acc) (d : Nat → Delta) (n : Nat) :
    k.addAll d n = { k with
      count := k.count + n
      elems := mtab (fun _ => AccElem.zero) (fun v => (k.elem v).after (d v) (k.count + n)) 4096 0 } := rfl

theorem Acc.elem_addAll (k : Acc) (d : Nat → Delta) (n : Nat) {v : Nat} (hv : v < 4096) :
    (k.addAll d n).elem v = (k.elem v).after (d v) (k.count + n) := by
  rw [Acc.elem, Acc.addAll_eq, mget_mtab _ _ _ _ _ (by omega)]

/-- The count only rises, so SAT that the first operation forces is forced by the second one too. -/
theorem AccElem.after_after (e : AccElem) (x y : Delta) (count n : Nat) :
    (e.after x count).after y (count + n) = e.after (x.add y) (count + n) := by
  have hforce : (decide (2 ^ 40 < count) || decide (2 ^ 40 < count + n)) = decide (2 ^ 40 < count + n) := by
    rw [← Bool.decide_or, decide_eq_decide]
    omega
  calc (e.after x count).after y (count + n)
      = { (e.addDelta x).addDelta y with
          sat := ((e.addDelta x).addDelta y).sat || (decide (2 ^ 40 < count) || decide (2 ^ 40 < count + n)) } := by
        simp only [AccElem.after, AccElem.addDelta, Bool.or_assoc, Bool.or_left_comm]
    _ = e.after (x.add y) (count + n) := by rw [AccElem.addDelta_addDelta, hforce, AccElem.after]

theorem Acc.addAll_addAll (k : Acc) (d e : Nat → Delta) (n m : Nat) :
    (k.addAll d n).addAll e m = k.addAll (fun v => (d v).add (e v)) (n + m) := by
  have hcount : (k.addAll d n).count = k.count + n := rfl
  have helem : ∀ v, 0 ≤ v → v < 0 + 4096 → ((k.addAll d n).elem v).after (e v) (k.count + n + m) =
      (k.elem v).after ((d v).add (e v)) (k.count + n + m) := fun v _ hv => by
    rw [Acc.elem_addAll k d n (by omega), AccElem.after_after]
  rw [Acc.addAll_eq (k.addAll d n), hcount, mtab_congr _ helem, Acc.addAll_eq k _ (n + m), Nat.add_assoc]
  rfl

theorem Acc.addAll_comm (k : Acc) (d e : Nat → Delta) (n m : Nat) :
    (k.addAll d n).addAll e m = (k.addAll e m).addAll d n := by
  simp only [Acc.addAll_addAll, Delta.add_comm, Nat.add_comm]

theorem Acc.foldl_addAll_perm (k : Acc) {l m : List ((Nat → Delta) × Nat)} (h : l.Perm m) :
    l.foldl (fun k d => k.addAll d.1 d.2) k = m.foldl (fun k d => k.addAll d.1 d.2) k :=
  h.foldl_eq' (fun d _ e _ k => Acc.addAll_comm k d.1 e.1 d.2 e.2) k

/-- Settles O10: two operations act as one with the sum of their contributions, and that sum is commutative. -/
theorem keystoneOrder : Obligations.KeystoneOrder :=
  ⟨fun k _ _ h => k.foldl_addAll_perm h, Acc.addAll_addAll, fun a _ _ _ _ h => keySum_perm a h, keySum_append⟩

end Sys2Proof.Machine
end

section
/-! Dimension-order routes (R285): on one axis a hop the shorter way takes one off the distance, a direction is found on the
first axis that differs, and a router settles the phase of a packet before it looks for its direction. -/

namespace Sys2Proof.Machine

/-! ## One axis -/

theorem axisGap_eq {a b ext : Nat} (ha : a < ext) (hb : b < ext) :
    (b + ext - a) % ext = if a ≤ b then b - a else b + ext - a := by
  split
  · rw [Nat.mod_eq_sub_mod (by omega), Nat.mod_eq_of_lt (by omega)]
    omega
  · exact Nat.mod_eq_of_lt (by omega)

theorem axisDir_eq_none_iff {a b ext : Nat} (ha : a < ext) (hb : b < ext) : axisDir a b ext = none ↔ a = b := by
  simp [axisDir, Nat.mod_eq_of_lt ha, Nat.mod_eq_of_lt hb]

theorem axisDir_eq_some_iff {a b ext : Nat} {up : Bool} (ha : a < ext) (hb : b < ext) :
    axisDir a b ext = some up ↔ a ≠ b ∧ (up = true ↔ (b + ext - a) % ext ≤ (a + ext - b) % ext) := by
  simp only [axisDir, Nat.mod_eq_of_lt ha, Nat.mod_eq_of_lt hb]
  split
  · simp [*]
  · cases up <;> simp [*]

/-- The coordinate one hop on along an axis: up where the direction's code is even. -/
def axisHop (d v ext : Nat) : Nat := if d % 2 = 0 then (v + 1) % ext else (v + ext - 1) % ext

theorem axisHop_lt (d : Nat) {v ext : Nat} (hv : v < ext) : axisHop d v ext < ext := by
  unfold axisHop
  split <;> exact Nat.mod_lt _ (by omega)

theorem axisHop_up {d v ext : Nat} (hd : d % 2 = 0) (hv : v < ext) :
    axisHop d v ext = if v + 1 = ext then 0 else v + 1 := by
  rw [axisHop, if_pos hd]
  split
  · next h => rw [h, Nat.mod_self]
  · exact Nat.mod_eq_of_lt (by omega)

theorem axisHop_down {d v ext : Nat} (hd : d % 2 ≠ 0) (hv : v < ext) :
    axisHop d v ext = if v = 0 then ext - 1 else v - 1 := by
  rw [axisHop, if_neg hd]
  split
  · next h => rw [h, Nat.zero_add, Nat.mod_eq_of_lt (by omega)]
  · rw [Nat.mod_eq_sub_mod (by omega), Nat.mod_eq_of_lt (by omega)]
    omega

/-- A hop the shorter way takes one off the distance of the axis. -/
theorem axisDist_axisHop {d a b ext : Nat} (ha : a < ext) (hb : b < ext)
    (h : axisDir a b ext = some (decide (d % 2 = 0))) : axisDist (axisHop d a ext) b ext + 1 = axisDist a b ext := by
  obtain ⟨hne, hway⟩ := (axisDir_eq_some_iff ha hb).1 h
  have hlt := axisHop_lt d ha
  rw [decide_eq_true_iff, axisGap_eq ha hb, axisGap_eq hb ha] at hway
  rw [axisDist, axisDist, axisGap_eq ha hb, axisGap_eq hb ha, axisGap_eq hlt hb, axisGap_eq hb hlt]
  by_cases hd : d % 2 = 0
  · rw [axisHop_up hd ha]
    grind
  · rw [axisHop_down hd ha]
    grind

/-! ## The direction of the next hop -/

theorem neighbour_eq (ext c : Coord) (d : Nat) : neighbour ext c d =
    if d / 2 = 0 then { c with x := axisHop d c.x ext.x } else if d / 2 = 1 then { c with y := axisHop d c.y ext.y }
    else { c with z := axisHop d c.z ext.z } := rfl

theorem neighbour_within {ext c : Coord} (d : Nat) (hc : c.within ext) : (neighbour ext c d).within ext := by
  obtain ⟨hx, hy, hz⟩ := hc
  rw [neighbour_eq]
  split
  · exact ⟨axisHop_lt d hx, hy, hz⟩
  · split
    · exact ⟨hx, axisHop_lt d hy, hz⟩
    · exact ⟨hx, hy, axisHop_lt d hz⟩

theorem axisOf_lt {ext c : Coord} (d : Nat) (hc : c.within ext) : axisOf d c < axisOf d ext := by
  obtain ⟨hx, hy, hz⟩ := hc
  unfold axisOf
  split
  · exact hx
  · split
    · exact hy
    · exact hz

theorem nextDir_eq_none_iff {ext c t : Coord} (hc : c.within ext) (ht : t.within ext) : nextDir ext c t = none ↔ c = t := by
  obtain ⟨hcx, hcy, hcz⟩ := hc
  obtain ⟨htx, hty, htz⟩ := ht
  have hcoord : c = t ↔ axisDir c.x t.x ext.x = none ∧ axisDir c.y t.y ext.y = none ∧ axisDir c.z t.z ext.z = none := by
    rw [axisDir_eq_none_iff hcx htx, axisDir_eq_none_iff hcy hty, axisDir_eq_none_iff hcz htz]
    cases c; cases t; simp
  rw [hcoord, nextDir]
  split
  · simp_all
  · split <;> simp_all

/-- The direction lies on the first axis that differs, and is the shorter way there. -/
theorem nextDir_eq_some {ext c t : Coord} {d : Nat} (h : nextDir ext c t = some d) :
    d < 6 ∧ axisDir (axisOf d c) (axisOf d t) (axisOf d ext) = some (decide (d % 2 = 0)) ∧
      (1 ≤ d / 2 → axisDir c.x t.x ext.x = none) ∧ (2 ≤ d / 2 → axisDir c.y t.y ext.y = none) := by
  unfold nextDir at h
  split at h
  · next up hx => cases up <;> cases h <;> simp [axisOf, hx]
  · next hx =>
    split at h
    · next up hy => cases up <;> cases h <;> simp [axisOf, hx, hy]
    · next hy =>
      obtain ⟨up, hz, rfl⟩ := Option.map_eq_some_iff.1 h
      cases up <;> simp [axisOf, hx, hy, hz]

/-- The hops that are left to `b`, by the shorter way on each axis. -/
def coordDist (ext a b : Coord) : Nat := axisDist a.x b.x ext.x + axisDist a.y b.y ext.y + axisDist a.z b.z ext.z

theorem coordDist_neighbour {ext c t : Coord} {d : Nat} (hc : c.within ext) (ht : t.within ext)
    (h : nextDir ext c t = some d) : coordDist ext (neighbour ext c d) t + 1 = coordDist ext c t := by
  obtain ⟨-, haxis, -⟩ := nextDir_eq_some h
  have hstep := axisDist_axisHop (axisOf_lt d hc) (axisOf_lt d ht) haxis
  unfold axisOf at hstep
  rw [neighbour_eq, coordDist, coordDist]
  split
  · simp_all only [if_true]
    omega
  · split
    · simp_all only [if_true, if_false]
      omega
    · simp_all only [if_false]
      omega

/-! ## The router -/

/-- The packet with its phase settled: one that stands at its MID_COORD is in phase 1. -/
def State.phased (s : State) (p : Packet) : Packet :=
  if !p.ph && coordOf p.midCoord == s.coord then { p with ph := true, dl := false } else p

/-- The target of a packet in its phase. -/
def routeTarget (p : Packet) : Coord := if p.ph then coordOf p.dstCoord else coordOf p.midCoord

theorem State.phased_ph (s : State) (p : Packet) :
    (s.phased p).ph = true ↔ p.ph = true ∨ coordOf p.midCoord = s.coord := by
  unfold State.phased
  split
  · simp_all
  · cases hp : p.ph <;> simp_all

theorem State.phased_frame (s : State) (p : Packet) :
    (s.phased p).midCoord = p.midCoord ∧ (s.phased p).dstCoord = p.dstCoord ∧ (s.phased p).det = p.det ∧
      (s.phased p).payload = p.payload := by
  unfold State.phased
  split <;> exact ⟨rfl, rfl, rfl, rfl⟩

theorem State.routeTarget_phased (s : State) (p : Packet) : routeTarget (s.phased p) =
    if p.ph = true ∨ coordOf p.midCoord = s.coord then coordOf p.dstCoord else coordOf p.midCoord := by
  obtain ⟨hmid, hdst, -, -⟩ := s.phased_frame p
  simp only [routeTarget, hmid, hdst, s.phased_ph]

theorem State.hop_of_nextDir_none {s : State} {home : Nat} {axis : Option Nat} {p : Packet}
    (h : nextDir s.extents s.coord (routeTarget (s.phased p)) = none) : s.hop home axis p = .here (sealed (s.phased p)) := by
  unfold State.hop
  unfold State.phased routeTarget at *
  simp only [h]

theorem State.hop_eq_out_iff {s : State} {home : Nat} {axis : Option Nat} {p q : Packet} {d m : Nat}
    (h : nextDir s.extents s.coord (routeTarget (s.phased p)) = some d) :
    s.hop home axis p = .out m q ↔ s.leave home axis d (s.phased p) = some (m, q) := by
  unfold State.hop
  unfold State.phased routeTarget at *
  simp only [h]
  split <;> simp_all

theorem mem_of_pick {l : List Nat} {i n : Nat} (h : (if l.isEmpty then none else some (l.getD (i % l.length) 0)) = some n) :
    n ∈ l := by
  split at h
  · cases h
  · next hl =>
    have hpos : 0 < l.length := List.length_pos_iff.2 fun hnil => hl (List.isEmpty_iff.2 hnil)
    cases h
    rw [List.getD_eq_getElem?_getD, List.getElem?_eq_getElem (Nat.mod_lt i hpos), Option.getD_some]
    exact List.getElem_mem _

theorem State.mem_groupUp_of_choosePort {s : State} {d home n : Nat} {seq : BitVec 16}
    (h : s.choosePort d home seq = some n) : n ∈ s.groupUp d := by
  have hmem := mem_of_pick h
  split at hmem
  · exact hmem
  · exact (List.mem_filter.1 hmem).1

theorem State.leave_eq_some {s : State} {home d m : Nat} {axis : Option Nat} {p q : Packet}
    (h : s.leave home axis d p = some (m, q)) :
    q.ph = p.ph ∧ (m ∈ s.groupUp d ∧ q.det = p.det ∨ p.det = false ∧ q.det = true) := by
  simp only [State.leave] at h
  split at h
  · next hport =>
    cases h
    exact ⟨rfl, .inl ⟨State.mem_groupUp_of_choosePort hport, rfl⟩⟩
  · split at h
    · cases h
    · next hno =>
      obtain ⟨n, -, hq⟩ := Option.map_eq_some_iff.1 h
      cases hq
      exact ⟨rfl, .inr ⟨by simpa using fun hdet => hno (.inl hdet), rfl⟩⟩

/-- In phase 0 a packet has not reached its MID_COORD, so one at its target is in phase 1. -/
theorem State.phased_ph_of_at_target {s : State} {p : Packet} (h : s.coord = routeTarget (s.phased p)) :
    (s.phased p).ph = true := by
  rw [s.phased_ph]
  rw [s.routeTarget_phased] at h
  split at h
  · next hone => exact hone
  · exact .inr h.symm

theorem State.hop_toward_target {s : State} {home m : Nat} {axis : Option Nat} {p q : Packet} (hs : s.coord.within s.extents)
    (ht : (routeTarget (s.phased p)).within s.extents) (haway : s.coord ≠ routeTarget (s.phased p))
    (hq : s.hop home axis p = .out m q) :
    ∃ d, nextDir s.extents s.coord (routeTarget (s.phased p)) = some d ∧ s.leave home axis d (s.phased p) = some (m, q) := by
  obtain ⟨d, hdir⟩ := Option.ne_none_iff_exists'.1 (mt (nextDir_eq_none_iff hs ht).1 haway)
  exact ⟨d, hdir, (State.hop_eq_out_iff hdir).1 hq⟩

/-- Settles O28: the direction is the shorter way on the first axis that differs, and the router takes it toward the target of
the packet's settled phase. -/
theorem routesShorten : Obligations.RoutesShorten := by
  refine ⟨fun ext c t hc ht => ⟨nextDir_eq_none_iff hc ht, fun d h => ?_⟩, fun s home axis p hs hmid hdst => ?_⟩
  · obtain ⟨hd, haxis, hx, hy⟩ := nextDir_eq_some h
    obtain ⟨hne, hway⟩ := (axisDir_eq_some_iff (axisOf_lt d hc) (axisOf_lt d ht)).1 haxis
    have ⟨hcx, hcy, _⟩ := hc
    have ⟨htx, hty, _⟩ := ht
    exact ⟨hd, neighbour_within d hc, coordDist_neighbour hc ht h, fun h1 => (axisDir_eq_none_iff hcx htx).1 (hx h1),
      fun h2 => (axisDir_eq_none_iff hcy hty).1 (hy h2), hne, decide_eq_true_iff.symm.trans hway⟩
  · intro phase1 target
    have htarget : routeTarget (s.phased p) = target := s.routeTarget_phased p
    have hph : (s.phased p).ph = true ↔ phase1 := s.phased_ph p
    obtain ⟨-, -, hdet, hpayload⟩ := s.phased_frame p
    have hin : (routeTarget (s.phased p)).within s.extents := by
      rw [s.routeTarget_phased]
      split
      · exact hdst
      · exact hmid
    rw [← htarget]
    refine ⟨fun hthere => ?_, fun haway m q hq => ?_⟩
    · have hone := State.phased_ph_of_at_target hthere
      exact ⟨hph.1 hone, _, State.hop_of_nextDir_none ((nextDir_eq_none_iff hs hin).2 hthere), hpayload, hone⟩
    · obtain ⟨d, hdir, hleave⟩ := State.hop_toward_target hs hin haway hq
      obtain ⟨hqph, hport⟩ := State.leave_eq_some hleave
      refine ⟨hqph ▸ hph, fun hstay => ⟨d, hdir, ?_⟩⟩
      obtain ⟨hup, -⟩ | ⟨hfalse, htrue⟩ := hport
      · exact hup
      · simp [← hdet, hfalse, htrue] at hstay

end Sys2Proof.Machine
end
